-- ==== Sys2Proof/Word.lean ====
section
/-! DEFINITION. The words of the RETRANS core: bytes, 16-bit sequence numbers, 32-bit registers, and the type of a
byte space. -/

namespace Sys2Proof

/-- A byte is 8 bits (R17). -/
abbrev Byte := BitVec 8

/-- A sequence or acknowledgement number, 16 bits, wrapping modulo 2^16 (R24, R25). -/
abbrev Seq := BitVec 16

/-- The width of `RESULT`, of the limits and of the counters of rules R28, R29, R35, R36, R38, R43. -/
abbrev Word := BitVec 32

/-- One byte space of rule R45: the bytes it holds, by offset from 0, in the canonical form of `Memory.wf`. -/
abbrev Memory := List Host.Cell

end Sys2Proof
end

