-- ==== Sys2Proof/Config.lean ====
section
/-! DEFINITION. The implementation parameters of 00_scope.md section 4 (R6 to R12), which the spec leaves OPEN, and the
free values: what the channel oracle answers where nothing scripted an answer (R47, R48, R58). -/

namespace Sys2Proof

/-- The class the parameter `FLAG11_CLASS` gives to a frame with both flag bits set (R12). -/
inductive Flag11Class where
  | ack
  | fin
  deriving DecidableEq, Repr, Inhabited

/-- The six named parameters of one core (R6 to R12). They are configuration: `State.cfg` carries them, no step writes them
(log entry 1). -/
structure Config where
  /-- `W`, the window size in slots (R6). -/
  w : Nat
  /-- `MAXP`, the maximum payload of a frame in bytes (R7). -/
  maxp : Nat
  /-- `TAG`, bits 7..2 of every flag byte (R9). -/
  tag : BitVec 6
  /-- `RXCAP`, the capacity of `RXBUF` in bytes (R10). -/
  rxcap : Nat
  /-- `CTXW`, the width of `CTX` in bits (R11). -/
  ctxw : Nat
  /-- `FLAG11_CLASS` (R12). -/
  flag11 : Flag11Class
  deriving DecidableEq, Repr, Inhabited

/-- The legal parameter values: R6 (`W` a power of two up to 32), R7, R10. -/
abbrev Config.Legal (c : Config) : Prop :=
  c.w ∈ [1, 2, 4, 8, 16, 32] ∧ 1 ≤ c.maxp ∧ c.maxp ≤ 65535 ∧ c.maxp + 9 ≤ c.rxcap

/-- `HDR_LEN` = 7: the bytes `flag`, `seq`, `ack`, `len` (R8). -/
abbrev hdrLen : Nat := 7

/-- `OVERHEAD` = `HDR_LEN` + `CRC_LEN` = 9 (R8). -/
abbrev overhead : Nat := 9

/-- DESIGN CHOICE (log entry 1): the parameters of the core that `State.reset` is a reset of. `W` and `MAXP` are those of
the source's one scenario (R6, R7), `TAG` is the vectors' example (R9), `RXCAP` and `FLAG11_CLASS` as in
95_test_vectors.md P1. No statement rests on these values. -/
def Config.sample : Config :=
  { w := 8, maxp := 32, tag := 0x2A, rxcap := 41, ctxw := 32, flag11 := .ack }

/-- One answer of the read port (R47): `Err`, or `Bytes(bs)`; the empty byte list is a timeout tick. -/
inductive ReadAnswer where
  | err
  | bytes (bs : List Byte)
  deriving DecidableEq, Repr, Inhabited

/-- One answer of the write port (R48). -/
inductive WriteAnswer where
  | ok
  | err
  deriving DecidableEq, Repr, Inhabited

/-- FREE VALUE (log entry 4): what the channel answers to a read that no scripted answer meets. -/
opaque Config.freeRead : Nat → ReadAnswer

/-- FREE VALUE (log entry 4): what the channel answers to a write that no scripted answer meets. -/
opaque Config.freeWrite : Nat → WriteAnswer

end Sys2Proof
end

