-- ==== Sys2Proof/Syntax.lean ====
section
/-! DEFINITION. The instructions of the RETRANS core: the four frame classes of the wire frame (R60, R66) and the eight
host commands (R74, R75), one constructor per row of spec/opcode_table.json. -/

namespace Sys2Proof

/-- A frame constructor is a frame the deframer has taken off `RXBUF`; its tag is the parameter `TAG` (R61), its `len` the
payload's length and its `crc` determined by the rest (R65), so neither is an operand. A command constructor carries the
operands rule R75 lists for it; the host spaces `TXDATA` and `OUT` stand in `State`. -/
inductive Instr where
  /-- DATA, flag bits 00 (R66, R134). -/
  | data (seq ack : Seq) (payload : List Byte)
  /-- ACK, flag bits 01 (R66, R117). -/
  | ack (seq ack : Seq) (payload : List Byte)
  /-- FIN, flag bits 10 (R66, R119, R133, R141). -/
  | fin (seq ack : Seq) (payload : List Byte)
  /-- FLAG11, flag bits 11: reserved, classed by `FLAG11_CLASS` (R66). -/
  | flag11 (seq ack : Seq) (payload : List Byte)
  /-- INIT, CMD 000 (R105). -/
  | init (maxRetrans maxTimeout : Word) (ctx : Nat)
  /-- RESET, CMD 001 (R106). -/
  | reset
  /-- SEND, CMD 010: `L`, the byte count (R113). -/
  | send (len : Word)
  /-- RECV, CMD 011: `CAP`, the capacity (R128). -/
  | recv (cap : Word)
  /-- CLOSE, CMD 100 (R140). -/
  | close (maxAttempts : Word)
  /-- WAIT, CMD 101 (R143). -/
  | wait (budget : Word)
  /-- ISCLOSED, CMD 110 (R107). -/
  | isclosed
  /-- SETCLOSED, CMD 111 (R108). -/
  | setclosed
  deriving DecidableEq, Repr

/-- The two kinds of rows of the table: frames come from the channel, commands from the host. -/
def Instr.isFrame : Instr → Bool
  | .data .. => true
  | .ack .. => true
  | .fin .. => true
  | .flag11 .. => true
  | .init .. => false
  | .reset => false
  | .send .. => false
  | .recv .. => false
  | .close .. => false
  | .wait .. => false
  | .isclosed => false
  | .setclosed => false

end Sys2Proof
end

