-- ==== Sys2Proof/WellFormed.lean ====
section
/-! DEFINITION. Which instructions are inside the rules' domain, for a core with parameters `c`. -/

namespace Sys2Proof

/-- What can be wrong with an instruction as syntax. -/
inductive Flaw where
  /-- A frame's payload is longer than `MAXP` (R60, R64). -/
  | payloadTooLong
  /-- A byte count of 2^31 or more (R75). -/
  | countTooLarge
  /-- A context that does not fit `CTXW` bits (R30, R75). -/
  | contextTooWide
  deriving DecidableEq, Repr

/-- The payload bound of a frame (R60: 0 <= n <= `MAXP`). -/
def checkPayload (c : Config) (payload : List Byte) : Option Flaw :=
  if payload.length ≤ c.maxp then none else some .payloadTooLong

/-- The domain of a byte count (R11, R75: below 2^31). -/
def checkCount (n : Word) : Option Flaw :=
  if n.toNat < 2 ^ 31 then none else some .countTooLarge

/-- The first flaw of an instruction, if it has one. -/
def Instr.flaw (c : Config) : Instr → Option Flaw
  | .data _ _ pl => checkPayload c pl
  | .ack _ _ pl => checkPayload c pl
  | .fin _ _ pl => checkPayload c pl
  | .flag11 _ _ pl => checkPayload c pl
  | .init _ _ ctx => if ctx < 2 ^ c.ctxw then none else some .contextTooWide
  | .reset => none
  | .send n => checkCount n
  | .recv n => checkCount n
  | .close _ => none
  | .wait _ => none
  | .isclosed => none
  | .setclosed => none

/-- An instruction a core with parameters `c` can be given. -/
abbrev Instr.WellFormed (c : Config) (i : Instr) : Prop := i.flaw c = none

end Sys2Proof
end

