-- ==== Sys2Proof/Decode.lean ====
section
/-! DEFINITION. The two encodings of the core and their decoders: the wire frame (30_encoding.md section 1,
40_codec_deframer.md) and the host command (30_encoding.md section 4); then the encoders. -/

namespace Sys2Proof

/-! ### Fields (R17, R50, R61, R70) -/

/-- `v[15:8]`, the byte at the lower offset (R50). -/
def hiByte (v : BitVec 16) : Byte := v.extractLsb' 8 8

/-- `v[7:0]` (R50). -/
def loByte (v : BitVec 16) : Byte := v.extractLsb' 0 8

/-- `hi ‖ lo`, a big-endian 16-bit field (R70). -/
def be16 (hi lo : Byte) : BitVec 16 := hi ++ lo

/-- Byte `i` of a byte sequence; the decoder asks only for bytes that are there. -/
def byteAt (bs : List Byte) (i : Nat) : Byte := bs.getD i 0

/-- `flag[7:2]`, the protocol tag (R61). -/
def tagOf (flag : Byte) : BitVec 6 := flag.extractLsb' 2 6

/-- `flag[1:0]`: bit 1 FIN, bit 0 ACK (R61). -/
def classBits (flag : Byte) : BitVec 2 := flag.extractLsb' 0 2

/-- The flag byte `tag ‖ FIN ‖ ACK` (R61). -/
def mkFlag (tag : BitVec 6) (cls : BitVec 2) : Byte := tag ++ cls

/-- `FLAG_DATA` = `4*TAG` (R61). -/
def flagData (c : Config) : Byte := mkFlag c.tag 0b00

/-- `FLAG_ACK` = `4*TAG + 1` (R61). -/
def flagAck (c : Config) : Byte := mkFlag c.tag 0b01

/-- `FLAG_FIN` = `4*TAG + 2` (R61). -/
def flagFin (c : Config) : Byte := mkFlag c.tag 0b10

/-! ### Checksum engine (R90) -/

/-- `rotr16(a)`, the 16-bit rotate right by one (R17). -/
def rotr16 (a : BitVec 16) : BitVec 16 := (a >>> 1) ||| ((a &&& 1) <<< 15)

/-- One byte into the accumulator: rotate, then add modulo 2^16 (R90). -/
def csumStep (acc : BitVec 16) (b : Byte) : BitVec 16 := rotr16 acc + b.zeroExtend 16

/-- `CSUM(bs)`: the accumulator seeded to 0, every byte in order (R90). -/
def csum (bs : List Byte) : BitVec 16 := bs.foldl csumStep 0

/-! ### Framer (R92) -/

/-- The seven header bytes `flag`, `seq`, `ack`, `len` (R60, R92). -/
def header (flag : Byte) (seq ack : Seq) (n : Nat) : List Byte :=
  let len := BitVec.ofNat 16 n
  [flag, hiByte seq, loByte seq, hiByte ack, loByte ack, hiByte len, loByte len]

/-- `ENCODE(flag, seq, ack, payload)` (R92). -/
def encodeFrame (flag : Byte) (seq ack : Seq) (payload : List Byte) : List Byte :=
  let body := header flag seq ack payload.length ++ payload
  body ++ [hiByte (csum body), loByte (csum body)]

/-! ### Deframer (R93) -/

/-- The decoded tuple (flag, seq, ack, len, payload) of rule R93; `len` is the payload's length. -/
structure Packet where
  flag : Byte
  seq : Seq
  ack : Seq
  payload : List Byte
  deriving DecidableEq, Repr

/-- The `len` of the decoded tuple (R93). -/
def Packet.len (p : Packet) : Nat := p.payload.length

/-- Why DECODE answers `Invalid` (R68 a to c). -/
inductive FrameError where
  | badTag
  | lenTooLong
  | badChecksum
  deriving DecidableEq, Repr

/-- What DECODE answers (R93, R40). -/
inductive DecodeOutcome where
  | needMore
  | invalid (why : FrameError)
  | packet (p : Packet) (used : Nat)
  deriving DecidableEq, Repr

/-- `DECODE(buf)`, the tests in exactly the order of rule R93. -/
def decodeFrame (c : Config) (buf : List Byte) : DecodeOutcome :=
  let n := (be16 (byteAt buf 5) (byteAt buf 6)).toNat
  if buf.length < hdrLen then .needMore
  else if tagOf (byteAt buf 0) ≠ c.tag then .invalid .badTag
  else if c.maxp < n then .invalid .lenTooLong
  else if buf.length < n + overhead then .needMore
  else if csum (buf.take (hdrLen + n)) ≠ be16 (byteAt buf (7 + n)) (byteAt buf (8 + n)) then .invalid .badChecksum
  else .packet
    { flag := byteAt buf 0
      seq := be16 (byteAt buf 1) (byteAt buf 2)
      ack := be16 (byteAt buf 3) (byteAt buf 4)
      payload := (buf.drop hdrLen).take n } (n + overhead)

/-- The instruction a packet is: its row of the table by `flag[1:0]` (R66). -/
def Packet.instr (p : Packet) : Instr :=
  if classBits p.flag = 0b00 then .data p.seq p.ack p.payload
  else if classBits p.flag = 0b01 then .ack p.seq p.ack p.payload
  else if classBits p.flag = 0b10 then .fin p.seq p.ack p.payload
  else .flag11 p.seq p.ack p.payload

/-! ### Host commands (R74, R75, R77) -/

/-- A command as the host presents it: `CMD` and the operand words (R75). -/
structure Launch where
  cmd : BitVec 3
  arg0 : Word
  arg1 : Word
  arg2 : Nat
  deriving DecidableEq, Repr, Inhabited

/-- The command decoder. It is total: all eight values of `CMD` are assigned (R77); operands not listed for a command are
ignored (R75). -/
def decodeLaunch (l : Launch) : Instr :=
  if l.cmd = 0b000 then .init l.arg0 l.arg1 l.arg2
  else if l.cmd = 0b001 then .reset
  else if l.cmd = 0b010 then .send l.arg0
  else if l.cmd = 0b011 then .recv l.arg0
  else if l.cmd = 0b100 then .close l.arg0
  else if l.cmd = 0b101 then .wait l.arg0
  else if l.cmd = 0b110 then .isclosed
  else .setclosed

/-! ### Both encodings together -/

/-- An encoded instruction: a command as presented, or bytes of the wire. -/
inductive Encoded where
  | command (l : Launch)
  | frame (bs : List Byte)
  deriving DecidableEq, Repr

/-- Why an encoded instruction is not (yet) an instruction. -/
inductive DecodeError where
  /-- The bytes are the incomplete front of a frame (R93). -/
  | incomplete
  /-- The bytes are a malformed frame (R68). -/
  | malformed (why : FrameError)
  /-- Bytes follow the frame. -/
  | trailing
  deriving DecidableEq, Repr

/-- The decoder on one encoded instruction; total, rejecting by name. -/
def decode (c : Config) : Encoded → Except DecodeError Instr
  | .command l => .ok (decodeLaunch l)
  | .frame bs =>
    match decodeFrame c bs with
    | .needMore => .error .incomplete
    | .invalid why => .error (.malformed why)
    | .packet p used => if used = bs.length then .ok p.instr else .error .trailing

/-- The encoder: R75 for a command, R60, R61 and R92 for a frame of a core whose tag is `c.tag`. -/
def encode (c : Config) : Instr → Encoded
  | .data seq ack pl => .frame (encodeFrame (mkFlag c.tag 0b00) seq ack pl)
  | .ack seq ack pl => .frame (encodeFrame (mkFlag c.tag 0b01) seq ack pl)
  | .fin seq ack pl => .frame (encodeFrame (mkFlag c.tag 0b10) seq ack pl)
  | .flag11 seq ack pl => .frame (encodeFrame (mkFlag c.tag 0b11) seq ack pl)
  | .init r t ctx => .command { cmd := 0b000, arg0 := r, arg1 := t, arg2 := ctx }
  | .reset => .command { cmd := 0b001, arg0 := 0, arg1 := 0, arg2 := 0 }
  | .send n => .command { cmd := 0b010, arg0 := n, arg1 := 0, arg2 := 0 }
  | .recv n => .command { cmd := 0b011, arg0 := n, arg1 := 0, arg2 := 0 }
  | .close n => .command { cmd := 0b100, arg0 := n, arg1 := 0, arg2 := 0 }
  | .wait n => .command { cmd := 0b101, arg0 := n, arg1 := 0, arg2 := 0 }
  | .isclosed => .command { cmd := 0b110, arg0 := 0, arg1 := 0, arg2 := 0 }
  | .setclosed => .command { cmd := 0b111, arg0 := 0, arg1 := 0, arg2 := 0 }

/-! ### The words of spec/opcode_table.json (log entry 10) -/

/-- Byte `i` of the word `w`: bit 0 is the least significant bit of the first byte. -/
def tableByte (w i : Nat) : Byte := BitVec.ofNat 8 (w / 2 ^ (8 * i))

/-- The first `n` bytes of the word `w`. -/
def tableBytes (w : Nat) : Nat → List Byte
  | 0 => []
  | n + 1 => tableBytes w n ++ [tableByte w n]

/-- DESIGN CHOICE (log entry 10): a word of one byte below 8 is a `CMD`, every other word a frame's flag byte and what
follows it. -/
def isCommandWord (nbits w : Nat) : Bool := nbits ≤ 8 && w < 8

/-- The command a table word stands for, with operand words of zeros. -/
def tableLaunch (w : Nat) : Launch := { cmd := BitVec.ofNat 3 w, arg0 := 0, arg1 := 0, arg2 := 0 }

/-- The wire bytes a table word stands for. Operand bytes above `nbits` are zero; a checksum the word gives no bits for is
no operand and is the one rule R65 gives (log entry 10). -/
def tableFrame (nbits w : Nat) : List Byte :=
  let n := (be16 (tableByte w 5) (tableByte w 6)).toNat
  let body := tableBytes w (hdrLen + n)
  if nbits < 8 * (n + overhead) then body ++ [hiByte (csum body), loByte (csum body)]
  else tableBytes w (n + overhead)

/-- The parameters of a core whose tag is that of the word's flag byte (log entry 10). -/
def tableConfig (c : Config) (w : Nat) : Config := { c with tag := tagOf (tableByte w 0) }

/-- What the decoders above read from a word of the opcode table. -/
def decodeTableWord (nbits w : Nat) : Option Instr :=
  if isCommandWord nbits w then some (decodeLaunch (tableLaunch w))
  else
    match decode (tableConfig Config.sample w) (.frame (tableFrame nbits w)) with
    | .ok i => some i
    | .error _ => none

end Sys2Proof
end

