-- ==== Sys2Proof/Machine/State.lean ====
section
/-! DEFINITION. The state of one core (10_state.md R20: exhaustive), the byte spaces of 20_memory.md R45, the two inputs a
deterministic step needs (the host's commands and the channel's answers), and the reasons a step can stop. -/

namespace Sys2Proof.Machine

/-- `OP`, the command in progress (R21). -/
inductive Op where
  | idle
  | init
  | reset
  | send
  | recv
  | close
  | wait
  | isclosed
  | setclosed
  deriving DecidableEq, Repr, Inhabited

/-- `PHASE`, the place in the command's rule (R21). The labels are those written `-- PHASE: name` in files 41 to 44 and, by
rule R18, one for each loop head and each channel transaction that has none there (log entry 13). A label at a transaction stands
exactly before it: what its rule computes first is done in the step before (R13; log entry 3). -/
inductive Phase where
  /-- PHASE has no meaning (R22: between commands; ISCLOSED and SETCLOSED have no label) (log entry 7). -/
  | none
  /-- `init` (R105). -/
  | init
  /-- `reset` (R106). -/
  | reset
  /-- `send_entry` (R113). -/
  | sendEntry
  /-- `send_round` (R113), the head of the round loop. -/
  | sendRound
  /-- `send_burst` (R114), the head of the burst's loop, before slot j. -/
  | sendBurst (j : Nat)
  /-- The `ChanWrite` of burst slot j's frame (R95, R114). -/
  | sendWrite (j : Nat)
  /-- `send_wait` (R116), the head of the outer loop. -/
  | sendWait
  /-- The `ChanRead` of `send_wait` (R99, R116). -/
  | sendRead
  /-- The head of the decode pass of `send_wait` (R101, R116). -/
  | sendPass
  /-- The `ChanWrite` of SEND's FIN echo (R119). -/
  | sendEcho
  /-- `send_advance` (R121). -/
  | sendAdvance
  /-- `send_done` (R113). -/
  | sendDone
  /-- `recv_entry` (R128). -/
  | recvEntry
  /-- `recv_drain` (R130), the head of DRAIN's loop, as called at entry (R128). -/
  | recvDrain
  /-- `recv_wait` (R128), the head of the channel loop and its `ChanRead`. -/
  | recvWait
  /-- The head of the decode pass of `recv_wait`. -/
  | recvPass
  /-- `recv_drain` (R130), as called for a data frame numbered `seq` (R134). -/
  | recvRedrain (seq : Seq)
  /-- The `ChanWrite` of the ACK reply (R135). -/
  | recvReply
  /-- The `ChanWrite` of RECV's FIN echo (R133). -/
  | recvEcho
  /-- `close_entry` (R140). -/
  | closeEntry
  /-- `close_attempt` (R140), the head of the attempt loop. -/
  | closeAttempt
  /-- The `ChanWrite` of CLOSE's FIN (R140). -/
  | closeWrite
  /-- `close_wait` (R141), the head of the read loop and its `ChanRead`. -/
  | closeWait
  /-- The head of the decode pass of `close_wait`. -/
  | closePass
  /-- `close_exhausted` (R140, R142). -/
  | closeExhausted
  /-- `wait_entry` (R143). -/
  | waitEntry
  /-- `wait_read` (R143), the head of the read loop. -/
  | waitRead
  /-- The `ChanRead` of `wait_read`. -/
  | waitPoll
  /-- The head of the decode pass of `wait_read`. -/
  | waitPass
  /-- The `ChanWrite` of WAIT's FIN reply (R143). -/
  | waitReply
  /-- `wait_done` (R143). -/
  | waitDone
  deriving DecidableEq, Repr, Inhabited

/-- The command whose rule a label stands in. -/
def Phase.op : Phase → Op
  | .none => .idle
  | .init => .init
  | .reset => .reset
  | .sendEntry | .sendRound | .sendBurst _ | .sendWrite _ | .sendWait | .sendRead | .sendPass | .sendEcho | .sendAdvance
  | .sendDone => .send
  | .recvEntry | .recvDrain | .recvWait | .recvPass | .recvRedrain _ | .recvReply | .recvEcho => .recv
  | .closeEntry | .closeAttempt | .closeWrite | .closeWait | .closePass | .closeExhausted => .close
  | .waitEntry | .waitRead | .waitPoll | .waitPass | .waitReply | .waitDone => .wait

/-- The labels at a `ChanRead` (R18, R47). -/
def Phase.reads : Phase → Bool
  | .sendRead | .recvWait | .closeWait | .waitPoll => true
  | _ => false

/-- The labels at a `ChanWrite` (R18, R48). -/
def Phase.writes : Phase → Bool
  | .sendWrite _ | .sendEcho | .recvReply | .recvEcho | .closeWrite | .waitReply => true
  | _ => false

/-- One slot of the reassembly window (R33): `WIN[s].len` (0 means empty) and the space `WIN[s].data`. -/
structure Slot where
  len : Nat
  data : Memory
  deriving DecidableEq, Repr, Inhabited

/-- The Connection State registers (R24 to R30) and the reassembly window (R33). -/
structure Conn where
  /-- `SEQ` (R24). -/
  seq : Seq
  /-- `ACK` (R25). -/
  ack : Seq
  /-- `WND` (R26). -/
  wnd : Nat
  /-- `CLOSED` (R27). -/
  closed : Bool
  /-- `MAX_RETRANS` (R28). -/
  maxRetrans : Word
  /-- `MAX_TIMEOUT` (R29). -/
  maxTimeout : Word
  /-- `CTX` (R30). -/
  ctx : Nat
  /-- `WIN[0]` .. `WIN[W-1]` (R33). -/
  win : List Slot
  deriving DecidableEq, Repr, Inhabited

/-- The working registers (R35 to R38). -/
structure Work where
  /-- `LEN0` (R35). -/
  len0 : Nat
  /-- `REMAIN` (R35). -/
  remain : Nat
  /-- `ACKED` (R35); `W` <= 32, the bits at or above `W` stay 0 (log entry 15). -/
  acked : Word
  /-- `BURST_I` (R35). -/
  burstI : Nat
  /-- `RETRY` (R35). -/
  retry : Word
  /-- `TICKS` (R36). -/
  ticks : Word
  /-- `CAP` (R37). -/
  cap : Nat
  /-- `OUTCNT` (R37). -/
  outcnt : Nat
  /-- `ATTEMPT` (R38). -/
  attempt : Word
  /-- `BUDGET_LEFT` (R38). -/
  budgetLeft : Word
  deriving DecidableEq, Repr, Inhabited

/-- The command registers `ARG0`, `ARG1`, `ARG2` (R44). -/
structure Args where
  arg0 : Word
  arg1 : Word
  arg2 : Nat
  deriving DecidableEq, Repr, Inhabited

/-- `RXBUF` and `RXFILL` (R39, R46). -/
structure RxBuf where
  buf : Memory
  fill : Nat
  deriving DecidableEq, Repr, Inhabited

/-- One channel transaction as an observer sees it (R16, R47, R48): what was presented, `CTX` among it (R30), and the answer. -/
inductive Transaction where
  | read (ctx maxLen : Nat) (answer : ReadAnswer)
  | write (ctx : Nat) (bytes : List Byte) (answer : WriteAnswer)
  deriving DecidableEq, Repr, Inhabited

/-- The channel as the core meets it (R14, R58): the answers it is going to give, in order (R78's channel script), how many
answers were drawn from the free values after the script's end, and the transactions made so far, the newest first. The
MODEL's own field (log entries 4, 19). -/
structure Chan where
  reads : List ReadAnswer
  writes : List WriteAnswer
  drawn : Nat
  trace : List Transaction
  deriving DecidableEq, Repr, Inhabited

/-- One command the host is going to issue (R14, R75): its encoding, and the two host spaces as the host presents them with
it (R49, R172). The MODEL's own field (log entry 5). -/
structure HostCmd where
  launch : Launch
  txdata : Memory
  out : Memory
  deriving DecidableEq, Repr, Inhabited

/-- The state of one core, its byte spaces and its inputs. -/
structure State where
  /-- The implementation parameters (R6 to R12), which nothing writes (log entry 1). -/
  cfg : Config
  /-- `OP` (R21). -/
  op : Op
  /-- `PHASE` (R21). -/
  phase : Phase
  /-- `INITED` (R23). -/
  inited : Bool
  /-- The Connection State and the window (R24 to R33). -/
  conn : Conn
  /-- The working registers (R35 to R38). -/
  work : Work
  /-- `RXBUF`, `RXFILL` (R39, R46). -/
  rx : RxBuf
  /-- `TXBUF` (R45, R46). -/
  txbuf : Memory
  /-- How many bytes the frame in `TXBUF` has (R46: `TXBUF` holds one encoded frame). The MODEL's own field (log entry 14). -/
  txfill : Nat
  /-- `TXDATA`, the host's (R49). -/
  txdata : Memory
  /-- `OUT`, the host's (R49). -/
  out : Memory
  /-- `ARG0` .. `ARG2` (R44). -/
  args : Args
  /-- `RESULT` (R43). -/
  result : Word
  /-- The commands the host is going to issue, in order (log entry 5). -/
  host : List HostCmd
  /-- The channel (log entry 4). -/
  chan : Chan
  deriving DecidableEq, Repr, Inhabited

/-- Why the machine stops with a fault. The core has no faults of its own: `raise` is a next state (R154). -/
inductive Fault where
  /-- Raised by `step` when `PHASE` names a place in another command's rule than `OP`: no rule says what happens, and no run
  reaches it (Safety.Control). Safe: the model stops. -/
  | phaseOutsideOp
  deriving DecidableEq, Repr

/-- Why the model says nothing about an input. -/
inductive Refusal where
  /-- The instruction of this mnemonic has no meaning yet. Safe. -/
  | notModelled (mnemonic : String)
  /-- Answered by a command's meaning when the core is busy (R172, 93_implementation_defined.md U5). Safe. -/
  | busyCore
  /-- Answered by every command but INIT while `INITED` = 0 (R171, U6). Safe. -/
  | notInited
  /-- Answered by SEND and RECV for a count of 2^31 or more (R75, U8). Safe. -/
  | countTooLarge
  /-- Answered by a read whose scripted answer is longer than the `max_len` asked for (R47, U7). Safe. -/
  | readAnswerTooLong
  /-- Answered by RECV's data arm for a payload longer than `MAXP`, which no decoded frame has (R64, R68 b) (log entry 21).
  Safe. -/
  | payloadTooLong
  deriving DecidableEq, Repr

/-- The three outcomes of a step. -/
abbrev Outcome := Host.Outcome State Fault Refusal

/-- An empty slot (R33). -/
def Slot.empty : Slot := { len := 0, data := [] }

/-- The core right after hardware reset (R42, R170), for the parameters `c`: idle, `INITED` = 0. Every other register is
"unspecified" in rule R42 and holds 0 here (DESIGN CHOICE, log entry 2); nothing is listed in any space; the host has issued
nothing and the channel has no scripted answer. -/
def State.resetWith (c : Config) : State :=
  { cfg := c
    op := .idle
    phase := .none
    inited := false
    conn :=
      { seq := 0, ack := 0, wnd := 0, closed := false, maxRetrans := 0, maxTimeout := 0, ctx := 0,
        win := List.replicate c.w Slot.empty }
    work :=
      { len0 := 0, remain := 0, acked := 0, burstI := 0, retry := 0, ticks := 0, cap := 0, outcnt := 0, attempt := 0,
        budgetLeft := 0 }
    rx := { buf := [], fill := 0 }
    txbuf := []
    txfill := 0
    txdata := []
    out := []
    args := { arg0 := 0, arg1 := 0, arg2 := 0 }
    result := 0
    host := []
    chan := { reads := [], writes := [], drawn := 0, trace := [] } }

/-- The machine right after reset, with the sample parameters (log entries 1, 2). -/
def State.reset : State := State.resetWith Config.sample

end Sys2Proof.Machine
end

