-- ==== Sys2Proof/Machine/Memory.lean ====
section
/-! DEFINITION. The byte spaces of rule R45 and the two primitives over them, `MemRead` and `MemWrite` (R18). A space lists
its bytes by offset, strictly rising, and lists no byte equal to what an unlisted offset reads as. -/

namespace Sys2Proof

/-- What an offset that a space does not list reads as: 0 (DESIGN CHOICE, log entry 11). -/
def Memory.blank : Byte := 0

/-- One byte of a space. -/
def Memory.read : Memory → Nat → Byte
  | [], _ => Memory.blank
  | (a, b) :: m, i => if a = i then b else Memory.read m i

/-- A space with offset `i` unlisted. -/
def Memory.erase (m : Memory) (i : Nat) : Memory := m.filter fun c => c.1 != i

/-- A cell put in front of the first one of a higher offset. -/
def Memory.insert : Memory → Nat → Byte → Memory
  | [], i, b => [(i, b)]
  | (a, v) :: m, i, b => if i < a then (i, b) :: (a, v) :: m else (a, v) :: Memory.insert m i b

/-- A space with one byte written, in canonical form again. -/
def Memory.write (m : Memory) (i : Nat) (b : Byte) : Memory :=
  if b = Memory.blank then m.erase i else (m.erase i).insert i b

/-- `MemRead(space, addr, n)` (R18): the `n` bytes from `addr` up. -/
def Memory.readBytes (m : Memory) (addr : Nat) : Nat → List Byte
  | 0 => []
  | n + 1 => Memory.read m addr :: Memory.readBytes m (addr + 1) n

/-- `MemWrite(space, addr, n, v)` (R18): the bytes of `v` from `addr` up. -/
def Memory.writeBytes (m : Memory) (addr : Nat) : List Byte → Memory
  | [] => m
  | b :: bs => Memory.writeBytes (Memory.write m addr b) (addr + 1) bs

/-- The canonical form from offset `lo` up. -/
def Memory.wfFrom : Nat → Memory → Bool
  | _, [] => true
  | lo, (a, b) :: m => decide (lo ≤ a) && (b != Memory.blank) && Memory.wfFrom (a + 1) m

/-- The canonical form: offsets strictly rising, no listed byte equal to an unlisted one. -/
def Memory.wf (m : Memory) : Bool := Memory.wfFrom 0 m

end Sys2Proof
end

