-- ==== Sys2Proof/Machine/Operands.lean ====
section
/-! DEFINITION. The operand forms: the modular offset of a sequence number (R19), the slot it falls in (R34), the bytes a
burst slot carries (R114), the class of a frame (R66), and the domain of a byte count (R75). -/

namespace Sys2Proof

/-- The three classes of rule R94. -/
inductive FrameClass where
  | data
  | ack
  | fin
  deriving DecidableEq, Repr

/-- The class a parameter value stands for (R12). -/
def Flag11Class.toClass : Flag11Class → FrameClass
  | .ack => .ack
  | .fin => .fin

/-- `CLASSIFY(flag)` (R66, R94). -/
def classify (c : Config) (flag : Byte) : FrameClass :=
  if classBits flag = 0b00 then .data
  else if classBits flag = 0b01 then .ack
  else if classBits flag = 0b10 then .fin
  else c.flag11.toClass

end Sys2Proof

namespace Sys2Proof.Machine

/-- `value -16 base`, the modular offset every range test is made on (R19). -/
def seqOffset (value base : Seq) : Nat := (value - base).toNat

/-- `(d + WND) mod W`, the slot at offset `d` from the head (R34). -/
def slotIndex (w wnd d : Nat) : Nat := (d + wnd) % w

/-- `WIN[i]`. An index at or above the window's size, which no step uses (Safety.Window), reads as an empty slot (log entry
17). -/
def Conn.slot (c : Conn) (i : Nat) : Slot := c.win.getD i Slot.empty

/-- `WIN[i] <- v`. -/
def Conn.setSlot (c : Conn) (i : Nat) (v : Slot) : Conn := { c with win := c.win.set i v }

/-- `WIN[s].len <- 0` for every s; the data bytes stay (R42, R105). -/
def Conn.clearSlots (c : Conn) : Conn := { c with win := c.win.map fun v => { v with len := 0 } }

/-- `ceil(REMAIN / MAXP)` and the window bound: `BURST_I` (R114). -/
def burstCount (c : Config) (remain : Nat) : Nat := min c.w ((remain + c.maxp - 1) / c.maxp)

/-- The offset in `TXDATA` of burst slot j: `a` of rule R114. -/
def burstStart (c : Config) (w : Work) (j : Nat) : Nat := (w.len0 - w.remain) + j * c.maxp

/-- The number of bytes of burst slot j: `b - a` of rule R114. -/
def burstBytes (c : Config) (w : Work) (j : Nat) : Nat := min ((j + 1) * c.maxp) w.remain - j * c.maxp

/-- The payload of burst slot j: `MemRead(TXDATA, a, b - a)` (R114). -/
def burstPayload (s : State) (j : Nat) : List Byte :=
  s.txdata.readBytes (burstStart s.cfg s.work j) (burstBytes s.cfg s.work j)

/-- A byte count inside the command's domain, below 2^31 (R11, R75). -/
def countInDomain (n : Word) : Bool := n.toNat < 2 ^ 31

/-- The valid bytes of `RXBUF`, oldest first (R46). -/
def RxBuf.bytes (r : RxBuf) : List Byte := r.buf.readBytes 0 r.fill

/-- The meaningful bytes of a slot, `data[0 .. len)` (R33). -/
def Slot.bytes (v : Slot) : List Byte := v.data.readBytes 0 v.len

/-- `CTX` and `ARG2` are `CTXW` bits wide (R30, R44) (log entry 12). -/
def truncCtx (c : Config) (v : Nat) : Nat := v % 2 ^ c.ctxw

end Sys2Proof.Machine
end

