-- ==== Sys2Proof/Machine/Flags.lean ====
section
/-! DEFINITION. The flag computations: the acknowledgement bitmask `ACKED` (R35, R116, R117, R119, R121). The core's one
architectural flag, `CLOSED` (R40), is a field of `Conn`. -/

namespace Sys2Proof.Machine

/-- `2^n - 1`: the low n bits set (R116, R119). -/
def lowBits (n : Nat) : Word := BitVec.ofNat 32 (2 ^ n - 1)

/-- `ACKED[j] = 1` (R114). -/
def isAcked (acked : Word) (j : Nat) : Bool := acked.getLsbD j

/-- `(ACKED & full) = full`: the whole burst is acknowledged (R116). -/
def burstAcked (acked : Word) (burstI : Nat) : Bool := acked &&& lowBits burstI == lowBits burstI

/-- The selective mark of rule R117: bit d, if d is inside the burst. -/
def markOne (acked : Word) (burstI d : Nat) : Word :=
  if d < burstI then acked ||| BitVec.ofNat 32 (2 ^ d) else acked

/-- The cumulative mark of rule R119: bits 0 .. d-1, if 1 <= d <= `BURST_I`. -/
def markBelow (acked : Word) (burstI d : Nat) : Word :=
  if 1 ≤ d ∧ d ≤ burstI then acked ||| lowBits d else acked

/-- The number of consecutive 1 bits from bit 0 up, looking at `n` bits at most (R121). -/
def contiguous : Nat → Word → Nat
  | 0, _ => 0
  | n + 1, acked => if acked.getLsbD 0 then contiguous n (acked >>> 1) + 1 else 0

end Sys2Proof.Machine
end

