-- ==== Sys2Proof/Machine/Ops.lean ====
section
/-! DEFINITION. The shared operations of the commands: ending a command (R43, R154), issuing one (R104), the two channel
ports (R47, R48), the operations on `RXBUF` (R59), TXFRAME and the frame builders (R95, R96), RXREAD (R99) and NEXTFRAME
(R100). -/

namespace Sys2Proof.Machine

/-! ### Ending and issuing a command -/

/-- The three error codes (R150). -/
inductive ErrCode where
  | rx
  | tx
  | final
  deriving DecidableEq, Repr

/-- `RESULT` for an error code, 32-bit two's complement (R150). -/
def ErrCode.value : ErrCode → Word
  | .rx => -1
  | .tx => -2
  | .final => -3

/-- The end of a command: `RESULT` is written, `OP <- IDLE`, `PHASE` has no meaning (R22, R43). The working registers, `RXBUF`,
`RXFILL` and `TXBUF` keep their last values, where U13 of 93_implementation_defined.md lets them be any (DESIGN CHOICE, log
entry 24). -/
def State.endWith (v : Word) (s : State) : State := { s with result := v, op := .idle, phase := .none }

/-- `return v` of a count (R18, R43). -/
def State.finish (n : Nat) (s : State) : State := s.endWith (BitVec.ofNat 32 n)

/-- TAKING AN EXCEPTION: `raise ERR_x` writes `RESULT` with the code and sets `OP <- IDLE`, and does nothing else (R154).
There is no return from it (R155). -/
def State.raise (e : ErrCode) (s : State) : State := s.endWith e.value

/-- `PHASE <- label` (R18). -/
def State.goto (p : Phase) (s : State) : State := { s with phase := p }

/-- Issuing a command to the core: `OP <-` its name, at its first label (R104). -/
def State.issue (o : Op) (p : Phase) (s : State) : State := { s with op := o, phase := p }

/-- When the host may issue a command at all: to an idle core (R172), and with `INITED` = 1 unless it is INIT (R171). -/
def guardLaunch (needsInit : Bool) (s : State) (k : Outcome) : Outcome :=
  if s.op ≠ .idle then .refused .busyCore
  else if needsInit && !s.inited then .refused .notInited
  else k

/-! ### The channel ports -/

/-- An answer of the free oracle, cut to the contract 0 <= |bs| <= `max_len` (R47). -/
def clipAnswer (maxLen : Nat) : ReadAnswer → ReadAnswer
  | .err => .err
  | .bytes bs => .bytes (bs.take maxLen)

/-- What the channel answers to the next `ChanRead(max_len)` (R47, R58): the script's next answer, or a free value. -/
def State.readAnswer (maxLen : Nat) (s : State) : ReadAnswer :=
  match s.chan.reads with
  | a :: _ => a
  | [] => clipAnswer maxLen (Config.freeRead s.chan.drawn)

/-- What the channel answers to the next `ChanWrite` (R48, R58): the script's next answer, or a free value. -/
def State.writeAnswer (s : State) : WriteAnswer :=
  match s.chan.writes with
  | a :: _ => a
  | [] => Config.freeWrite s.chan.drawn

/-- The channel after a read: the answer is used up and the transaction seen, with `CTX` (R30, R47). -/
def State.logRead (maxLen : Nat) (s : State) : State :=
  { s with chan :=
    { s.chan with
      reads := s.chan.reads.tail
      drawn := if s.chan.reads.isEmpty then s.chan.drawn + 1 else s.chan.drawn
      trace := .read s.conn.ctx maxLen (s.readAnswer maxLen) :: s.chan.trace } }

/-- The channel after a write of `bs`: the answer is used up and the transaction seen, with `CTX` (R30, R48). -/
def State.logWrite (bs : List Byte) (s : State) : State :=
  { s with chan :=
    { s.chan with
      writes := s.chan.writes.tail
      drawn := if s.chan.writes.isEmpty then s.chan.drawn + 1 else s.chan.drawn
      trace := .write s.conn.ctx bs s.writeAnswer :: s.chan.trace } }

/-! ### TXFRAME and the frame builders -/

/-- ENCODE's result into `TXBUF` (R45, R46). -/
def State.fillTx (bs : List Byte) (s : State) : State :=
  { s with txbuf := s.txbuf.writeBytes 0 bs, txfill := bs.length }

/-- The frame `TXBUF` holds (R46). -/
def State.txBytes (s : State) : List Byte := s.txbuf.readBytes 0 s.txfill

/-- The first half of `TXFRAME(flag, seq, ack, payload)` (R95): ENCODE into `TXBUF`; the core then stands at the `ChanWrite`, at
label `p`. -/
def txFrame (flag : Byte) (seq ack : Seq) (payload : List Byte) (p : Phase) (s : State) : State :=
  (s.fillTx (encodeFrame flag seq ack payload)).goto p

/-- The second half of `TXFRAME` (R95) and what the rule does after it: one `ChanWrite` of exactly the frame in `TXBUF`; on `Err`,
`raise ERR_TX` at once. -/
def chanWrite (k : State → State) (s : State) : State :=
  match s.writeAnswer with
  | .ok => k (s.logWrite s.txBytes)
  | .err => (s.logWrite s.txBytes).raise .tx

/-- `TXDATA_FRAME(j, pl)` (R96, row a of R69). -/
def txDataFrame (j : Nat) (payload : List Byte) (p : Phase) (s : State) : State :=
  txFrame (flagData s.cfg) (s.conn.seq + BitVec.ofNat 16 j) s.conn.ack payload p s

/-- `TXACK(s)` (R96, row b of R69). -/
def txAck (named : Seq) (p : Phase) (s : State) : State :=
  txFrame (flagAck s.cfg) s.conn.seq named [] p s

/-- `TXFIN_OWN()` (R96, row c of R69). -/
def txFinOwn (p : Phase) (s : State) : State :=
  txFrame (flagFin s.cfg) s.conn.seq s.conn.ack [] p s

/-- `TXFIN_COPY(p)` (R96, row d of R69). -/
def txFinCopy (seq ack : Seq) (p : Phase) (s : State) : State :=
  txFrame (flagFin s.cfg) seq ack [] p s

/-! ### RXBUF and RXREAD -/

/-- Append (R59). -/
def RxBuf.append (bs : List Byte) (r : RxBuf) : RxBuf :=
  { buf := r.buf.writeBytes r.fill bs, fill := r.fill + bs.length }

/-- Consume of n bytes, n <= `RXFILL` (R59). -/
def RxBuf.consume (n : Nat) (r : RxBuf) : RxBuf :=
  { buf := r.buf.writeBytes 0 (r.buf.readBytes n (r.fill - n)), fill := r.fill - n }

/-- Discard: `RXFILL <- 0` (R59). -/
def RxBuf.discard (r : RxBuf) : RxBuf := { r with fill := 0 }

/-- The `max_len` the core always asks with: `RXCAP` - `RXFILL` (R47, R99). -/
def State.room (s : State) : Nat := s.cfg.rxcap - s.rx.fill

/-- How one `ChanRead` ends. -/
inductive ReadEvent where
  /-- `Err`: `ERR_RX` was raised. -/
  | raised
  /-- `Bytes([])`. -/
  | empty
  /-- `Bytes(bs)`, appended to `RXBUF`. -/
  | got
  /-- An answer longer than `max_len`, which breaks the contract (R47, U7). -/
  | tooLong
  deriving DecidableEq, Repr

/-- `ChanRead(RXCAP - RXFILL)` and the append of its bytes (R47, R59, R99, R143). -/
def chanRead (s : State) : ReadEvent × State :=
  let s1 := s.logRead s.room
  match s.readAnswer s.room with
  | .err => (.raised, s1.raise .rx)
  | .bytes bs =>
    if s.room < bs.length then (.tooLong, s1)
    else if bs.isEmpty then (.empty, s1)
    else (.got, { s1 with rx := s1.rx.append bs })

/-- What RXREAD answers (R99). -/
inductive RxResult where
  | raised
  | tick
  | timedOut
  | got
  | tooLong
  deriving DecidableEq, Repr

/-- `TICKS <- v` (R36). -/
def State.setTicks (v : Word) (s : State) : State := { s with work := { s.work with ticks := v } }

/-- `RXREAD()` (R99): one read, with the timeout bookkeeping. -/
def rxRead (s : State) : RxResult × State :=
  match chanRead s with
  | (.raised, s1) => (.raised, s1)
  | (.tooLong, s1) => (.tooLong, s1)
  | (.got, s1) => (.got, s1)
  | (.empty, s1) =>
    let s2 := s1.setTicks (s1.work.ticks + 1)
    if s2.conn.maxTimeout ≤ s2.work.ticks then (.timedOut, s2) else (.tick, s2)

/-- `NEXTFRAME()` (R100): takes one frame off the front of `RXBUF`. -/
def nextFrame (s : State) : Option Instr × State :=
  match decodeFrame s.cfg s.rx.bytes with
  | .needMore => (none, s)
  | .invalid _ => (none, { s with rx := s.rx.discard })
  | .packet p used => (some p.instr, { s with rx := s.rx.consume used })

end Sys2Proof.Machine
end

