-- ==== Sys2Proof/Machine/Connection.lean ====
section
/-! DEFINITION. The connection-state commands INIT, RESET, ISCLOSED, SETCLOSED (41_connection_ops.md). -/

namespace Sys2Proof.Machine

/-- The body of INIT, from its label `init` (R105). -/
def runInit (s : State) : State :=
  { s with
    inited := true
    conn :=
      { s.conn.clearSlots with
        seq := 0, ack := 0, wnd := 0, closed := false
        maxRetrans := s.args.arg0, maxTimeout := s.args.arg1, ctx := s.args.arg2 } }.finish 0

/-- INIT (R105): legal on any idle core. -/
def execInit (maxRetrans maxTimeout : Word) (ctx : Nat) (s : State) : Outcome :=
  guardLaunch false s <| .next <|
    runInit { s.issue .init .init with
      args := { arg0 := maxRetrans, arg1 := maxTimeout, arg2 := truncCtx s.cfg ctx } }

/-- The body of RESET, from its label `reset` (R106). -/
def runReset (s : State) : State :=
  { s with conn := { s.conn.clearSlots with seq := 0, ack := 0, wnd := 0, closed := false } }.finish 0

/-- RESET (R106). -/
def execReset (s : State) : Outcome :=
  guardLaunch true s <| .next <| runReset (s.issue .reset .reset)

/-- ISCLOSED (R107): `return zext_32(CLOSED)`. -/
def execIsclosed (s : State) : Outcome :=
  guardLaunch true s <| .next <| (s.issue .isclosed .none).finish s.conn.closed.toNat

/-- `CLOSED <- 1` (R27). -/
def State.setClosed (s : State) : State := { s with conn := { s.conn with closed := true } }

/-- SETCLOSED (R108). -/
def execSetclosed (s : State) : Outcome :=
  guardLaunch true s <| .next <| (s.issue .setclosed .none).setClosed.finish 0

end Sys2Proof.Machine
end

