-- ==== Sys2Proof/Machine/SendEngine.lean ====
section
/-! DEFINITION. The send engine (42_send_engine.md): SEND's entry, its phases, and its three frame arms. -/

namespace Sys2Proof.Machine

/-- `return LEN0 - REMAIN` (R113, R122). -/
def sendReturn (s : State) : State := s.finish (s.work.len0 - s.work.remain)

/-- SEND from its label `send_entry` (R113). -/
def runSend (s : State) : State :=
  if s.conn.closed then s.raise .final
  else
    { s with
      phase := .sendRound
      rx := s.rx.discard
      work :=
        { s.work with
          len0 := s.args.arg0.toNat, remain := s.args.arg0.toNat, acked := 0, retry := 0 } }

/-- SEND (R113): the command is issued and runs to the head of its round loop. -/
def execSend (len : Word) (s : State) : Outcome :=
  guardLaunch true s <|
    if countInDomain len then
      .next (runSend { s.issue .send .sendEntry with args := { s.args with arg0 := len } })
    else .refused .countTooLarge

/-- The head of the round loop: `while REMAIN > 0`, and the start of BURST (R113, R114). -/
def stepSendRound (s : State) : State :=
  if 0 < s.work.remain then
    { s with phase := .sendBurst 0, work := { s.work with burstI := burstCount s.cfg s.work.remain } }
  else s.goto .sendDone

/-- One turn of BURST's loop (R114): the arbiter skips an acknowledged slot (R115), for any other the frame is made. After the
last slot, `RETRY <- RETRY + 1` and the wait begins with `TICKS <- 0` (R113, R116, R120). -/
def stepSendBurst (j : Nat) (s : State) : State :=
  if j < s.work.burstI then
    if isAcked s.work.acked j then s.goto (.sendBurst (j + 1))
    else txDataFrame j (burstPayload s j) (.sendWrite j) s
  else
    { s with phase := .sendWait, work := { s.work with retry := s.work.retry + 1, ticks := 0 } }

/-- The write of slot j (R114). -/
def stepSendWrite (j : Nat) (s : State) : State := chanWrite (State.goto (.sendBurst (j + 1))) s

/-- The end of the wait: the retransmission check of step 3, then the advance (R113, R120). -/
def leaveSendWait (s : State) : State :=
  if s.conn.maxRetrans ≤ s.work.retry then sendReturn s else s.goto .sendAdvance

/-- The head of ACKWAIT's outer loop (R116): the two leave-tests, else on to RXREAD. -/
def stepSendWait (s : State) : State :=
  if burstAcked s.work.acked s.work.burstI || s.conn.closed then leaveSendWait s else s.goto .sendRead

/-- ACKWAIT's RXREAD (R116). -/
def stepSendRead (s : State) : Outcome :=
  match rxRead s with
  | (.raised, s1) => .next s1
  | (.tick, s1) => .next (s1.goto .sendWait)
  | (.timedOut, s1) => .next (leaveSendWait s1)
  | (.got, s1) => .next (s1.goto .sendPass)
  | (.tooLong, _) => .refused .readAnswerTooLong

/-- ADVANCE (R121) alone: slides the window. -/
def advance (s : State) : State :=
  let k := contiguous s.cfg.w s.work.acked
  { s with
    conn := { s.conn with seq := s.conn.seq + BitVec.ofNat 16 k }
    work := { s.work with remain := s.work.remain - k * s.cfg.maxp, acked := s.work.acked >>> k } }

/-- ADVANCE, then the stop on `CLOSED` (R113, R121). -/
def stepSendAdvance (s : State) : State :=
  if s.conn.closed then (advance s).goto .sendDone else (advance s).goto .sendRound

/-- What every decoded frame does in SEND's wait: `TICKS <- 0 ; RETRY <- 0` (R116). -/
def sendProgress (s : State) : State := { s with work := { s.work with ticks := 0, retry := 0 } }

/-- ACK arm (R117). -/
def sendAckArm (ack : Seq) (s : State) : State :=
  let s1 := sendProgress s
  { s1 with work := { s1.work with acked := markOne s1.work.acked s1.work.burstI (seqOffset ack s1.conn.seq) } }

/-- DATA arm: the frame is ignored (R118). -/
def sendDataArm (s : State) : State := sendProgress s

/-- FIN arm: the cumulative mark, and the echo made (R119). -/
def sendFinArm (seq ack : Seq) (s : State) : State :=
  let s1 := sendProgress s
  txFinCopy seq ack .sendEcho
    { s1 with work := { s1.work with acked := markBelow s1.work.acked s1.work.burstI (seqOffset ack s1.conn.seq) } }

/-- The echo's write, the close, and back to the decode pass (R119). -/
def stepSendEcho (s : State) : State := chanWrite (fun s1 => s1.setClosed.goto .sendPass) s

end Sys2Proof.Machine
end

