-- ==== Sys2Proof/Machine/ReceiveEngine.lean ====
section
/-! DEFINITION. The receive engine (43_receive_engine.md): RECV's entry with the drain, its channel loop, and its three frame
arms. -/

namespace Sys2Proof.Machine

/-- One full consumption of the head slot (R130): its bytes to `OUT`, `WND` and `ACK` move together (R31 d). -/
def drainFull (s : State) : State :=
  let v := s.conn.slot s.conn.wnd
  { s with
    out := s.out.writeBytes s.work.outcnt v.bytes
    work := { s.work with outcnt := s.work.outcnt + v.len }
    conn :=
      { s.conn.setSlot s.conn.wnd { v with len := 0 } with
        wnd := (s.conn.wnd + 1) % s.cfg.w
        ack := s.conn.ack + 1 } }

/-- A partial consumption of the head slot (R130): `room` bytes to `OUT`, the rest shifted down. -/
def drainPart (room : Nat) (s : State) : State :=
  let v := s.conn.slot s.conn.wnd
  { s with
    out := s.out.writeBytes s.work.outcnt (v.data.readBytes 0 room)
    work := { s.work with outcnt := s.work.cap }
    conn :=
      s.conn.setSlot s.conn.wnd
        { len := v.len - room, data := v.data.writeBytes 0 (v.data.readBytes room (v.len - room)) } }

/-- One turn of DRAIN's loop (R130); `none` where the loop is left: `OUTCNT` = `CAP`, or a gap. -/
def drainTurn (s : State) : Option State :=
  let v := s.conn.slot s.conn.wnd
  if s.work.outcnt < s.work.cap then
    if v.len = 0 then none
    else if v.len ≤ s.work.cap - s.work.outcnt then some (drainFull s)
    else some (drainPart (s.work.cap - s.work.outcnt) s)
  else none

/-- `return OUTCNT` (R128). -/
def recvReturn (s : State) : State := s.finish s.work.outcnt

/-- The entry tests, after the first drain (R128, R129). -/
def recvEntryTests (s : State) : State :=
  if s.work.outcnt = s.work.cap then recvReturn s
  else if s.conn.closed then
    if s.work.outcnt = 0 then s.raise .final else recvReturn s
  else { s with phase := .recvWait, work := { s.work with ticks := 0 } }

/-- RECV at `recv_drain`, as called at entry (R128, R130). -/
def stepRecvDrain (s : State) : State :=
  match drainTurn s with
  | some s1 => s1
  | none => recvEntryTests s

/-- RECV from its label `recv_entry` (R128). -/
def runRecv (s : State) : State :=
  { s with
    phase := .recvDrain
    rx := s.rx.discard
    work := { s.work with cap := s.args.arg0.toNat, outcnt := 0 } }

/-- RECV (R128): the command is issued and runs to the head of its first drain. -/
def execRecv (cap : Word) (s : State) : Outcome :=
  guardLaunch true s <|
    if countInDomain cap then
      .next (runRecv { s.issue .recv .recvEntry with args := { s.args with arg0 := cap } })
    else .refused .countTooLarge

/-- The head of the channel loop (R128, R131). -/
def stepRecvWait (s : State) : Outcome :=
  match rxRead s with
  | (.raised, s1) => .next s1
  | (.tick, s1) => .next s1
  | (.timedOut, s1) => .next (recvReturn s1)
  | (.got, s1) => .next (s1.goto .recvPass)
  | (.tooLong, _) => .refused .readAnswerTooLong

/-- ACK arm: nothing but `TICKS <- 0` (R132). -/
def recvAckArm (s : State) : State := s.setTicks 0

/-- FIN arm: the echo with own counters is made (R133). -/
def recvFinArm (s : State) : State := txFinOwn .recvEcho (s.setTicks 0)

/-- The echo's write, the close, the return (R133). -/
def stepRecvEcho (s : State) : State := chanWrite (fun s1 => recvReturn s1.setClosed) s

/-- DATA arm (R134): into the slot of the frame's sequence number, if it is in the window, empty, and the payload is not; then the
drain. In every other case nothing is stored, and the ACK reply is made (R135). -/
def recvDataArm (seq : Seq) (payload : List Byte) (s : State) : State :=
  let s1 := s.setTicks 0
  let d := seqOffset seq s.conn.ack
  let i := slotIndex s.cfg.w s.conn.wnd d
  let v := s.conn.slot i
  if d < s.cfg.w ∧ v.len = 0 ∧ 0 < payload.length then
    { s1 with
      phase := .recvRedrain seq
      conn := s.conn.setSlot i { len := payload.length, data := v.data.writeBytes 0 payload } }
  else txAck seq .recvReply s1

/-- RECV at `recv_drain`, as called for the data frame `seq` (R130, R134); after the loop the ACK reply is made (R135). -/
def stepRecvRedrain (seq : Seq) (s : State) : State :=
  match drainTurn s with
  | some s1 => s1
  | none => txAck seq .recvReply s

/-- The ACK reply's write, and the capacity test (R135). -/
def stepRecvReply (s : State) : State :=
  chanWrite (fun s1 => if s1.work.outcnt = s1.work.cap then recvReturn s1 else s1.goto .recvPass) s

end Sys2Proof.Machine
end

