-- ==== Sys2Proof/Machine/TeardownEngine.lean ====
section
/-! DEFINITION. The teardown engine (44_teardown_engine.md): CLOSE and WAIT, their phases and frame arms. -/

namespace Sys2Proof.Machine

/-- CLOSE from its label `close_entry` (R140). -/
def runClose (s : State) : State :=
  if s.conn.closed then s.finish 0
  else { s with phase := .closeAttempt, rx := s.rx.discard, work := { s.work with attempt := 0 } }

/-- CLOSE (R140): the command is issued and runs to the head of its attempt loop. -/
def execClose (maxAttempts : Word) (s : State) : Outcome :=
  guardLaunch true s <| .next <|
    runClose { s.issue .close .closeEntry with args := { s.args with arg0 := maxAttempts } }

/-- The head of the attempt loop (R140): `while ATTEMPT < max_attempts`, and the FIN made. -/
def stepCloseAttempt (s : State) : State :=
  if s.work.attempt < s.args.arg0 then
    txFinOwn .closeWrite { s with work := { s.work with attempt := s.work.attempt + 1 } }
  else s.goto .closeExhausted

/-- The FIN's write, and the start of CLOSEWAIT (R140, R141). -/
def stepCloseWrite (s : State) : State := chanWrite (fun s1 => (s1.setTicks 0).goto .closeWait) s

/-- `close_exhausted`: `return 0` (R140, R142). -/
def stepCloseExhausted (s : State) : State := s.finish 0

/-- The head of CLOSEWAIT's loop (R141). -/
def stepCloseWait (s : State) : Outcome :=
  match rxRead s with
  | (.raised, s1) => .next s1
  | (.tick, s1) => .next s1
  | (.timedOut, s1) => .next (s1.goto .closeAttempt)
  | (.got, s1) => .next (s1.goto .closePass)
  | (.tooLong, _) => .refused .readAnswerTooLong

/-- A frame of another class in CLOSEWAIT is skipped: `TICKS <- 0` only (R141). -/
def closeSkipArm (s : State) : State := s.setTicks 0

/-- The FIN that ends CLOSE: `CLOSED <- 1 ; return 0`, no echo (R141). -/
def closeFinArm (s : State) : State := ((s.setTicks 0).setClosed).finish 0

/-- WAIT from its label `wait_entry` (R143). -/
def runWait (s : State) : State :=
  { s with phase := .waitRead, rx := s.rx.discard, work := { s.work with budgetLeft := s.args.arg0 } }

/-- WAIT (R143): the command is issued and runs to the head of its read loop. -/
def execWait (budget : Word) (s : State) : Outcome :=
  guardLaunch true s <| .next <|
    runWait { s.issue .wait .waitEntry with args := { s.args with arg0 := budget } }

/-- The head of WAIT's read loop (R143): every read counts against the budget; `TICKS` plays no part. -/
def stepWaitRead (s : State) : State :=
  if 0 < s.work.budgetLeft then
    { s with phase := .waitPoll, work := { s.work with budgetLeft := s.work.budgetLeft - 1 } }
  else s.goto .waitDone

/-- WAIT's read (R143). -/
def stepWaitPoll (s : State) : Outcome :=
  match chanRead s with
  | (.raised, s1) => .next s1
  | (.empty, s1) => .next (s1.goto .waitRead)
  | (.got, s1) => .next (s1.goto .waitPass)
  | (.tooLong, _) => .refused .readAnswerTooLong

/-- `wait_done`: `return 0` (R143). -/
def stepWaitDone (s : State) : State := s.finish 0

/-- Every decoded frame, whatever its class, is answered with a FIN (R143); nothing else changes (R144). -/
def waitReplyArm (s : State) : State := txFinOwn .waitReply s

/-- The reply's write, and back to the decode pass (R143). -/
def stepWaitReply (s : State) : State := chanWrite (State.goto .waitPass) s

end Sys2Proof.Machine
end

