-- ==== Sys2Proof/Machine/Frames.lean ====
section
/-! DEFINITION. The meanings of the four frame classes: what the command whose decode pass took the frame does with it (R101),
up to the next label (R18): a frame that is answered leaves the core at the answer's `ChanWrite`. At any other place nothing takes a frame off the channel and nothing happens to the core (R41, R166; log entry 6). -/

namespace Sys2Proof.Machine

/-- What a data frame does (R118, R134 and R135, R141, R143). -/
def dataMeaning (seq : Seq) (payload : List Byte) (s : State) : Outcome :=
  match s.op, s.phase with
  | .send, .sendPass => .next (sendDataArm s)
  | .recv, .recvPass =>
    if payload.length ≤ s.cfg.maxp then .next (recvDataArm seq payload s) else .refused .payloadTooLong
  | .close, .closePass => .next (closeSkipArm s)
  | .wait, .waitPass => .next (waitReplyArm s)
  | _, _ => .next s

/-- What a frame of class ACK does (R117, R132, R141, R143). -/
def ackMeaning (ack : Seq) (s : State) : Outcome :=
  match s.op, s.phase with
  | .send, .sendPass => .next (sendAckArm ack s)
  | .recv, .recvPass => .next (recvAckArm s)
  | .close, .closePass => .next (closeSkipArm s)
  | .wait, .waitPass => .next (waitReplyArm s)
  | _, _ => .next s

/-- What a frame of class FIN does (R119, R133, R141, R143). -/
def finMeaning (seq ack : Seq) (s : State) : Outcome :=
  match s.op, s.phase with
  | .send, .sendPass => .next (sendFinArm seq ack s)
  | .recv, .recvPass => .next (recvFinArm s)
  | .close, .closePass => .next (closeFinArm s)
  | .wait, .waitPass => .next (waitReplyArm s)
  | _, _ => .next s

/-- DATA (R134). -/
def execData (seq : Seq) (payload : List Byte) (s : State) : Outcome := dataMeaning seq payload s

/-- ACK (R117); its `seq` and payload are not looked at. -/
def execAck (ack : Seq) (s : State) : Outcome := ackMeaning ack s

/-- FIN (R133); its payload is not looked at. -/
def execFin (seq ack : Seq) (s : State) : Outcome := finMeaning seq ack s

/-- FLAG11 (R66): handled exactly as the class `FLAG11_CLASS` names. -/
def execFlag11 (seq ack : Seq) (s : State) : Outcome :=
  match s.cfg.flag11 with
  | .ack => ackMeaning ack s
  | .fin => finMeaning seq ack s

end Sys2Proof.Machine
end

