-- ==== Sys2Proof/Machine/Dispatch.lean ====
section
/-! DEFINITION. The one dispatch from an instruction to its meaning. -/

namespace Sys2Proof.Machine

def exec (i : Instr) (s : State) : Host.Outcome State Fault Refusal :=
  match i with
  | .data seq _ payload => Sys2Proof.Machine.execData seq payload s
  | .ack _ ack _ => Sys2Proof.Machine.execAck ack s
  | .fin seq ack _ => Sys2Proof.Machine.execFin seq ack s
  | .flag11 seq ack _ => Sys2Proof.Machine.execFlag11 seq ack s
  | .init r t ctx => Sys2Proof.Machine.execInit r t ctx s
  | .reset => Sys2Proof.Machine.execReset s
  | .send len => Sys2Proof.Machine.execSend len s
  | .recv cap => Sys2Proof.Machine.execRecv cap s
  | .close maxAttempts => Sys2Proof.Machine.execClose maxAttempts s
  | .wait budget => Sys2Proof.Machine.execWait budget s
  | .isclosed => Sys2Proof.Machine.execIsclosed s
  | .setclosed => Sys2Proof.Machine.execSetclosed s

end Sys2Proof.Machine
end

