-- ==== Sys2Proof/Machine/Fetch.lean ====
section
/-! DEFINITION. Where the next instruction comes from: an idle core takes the host's next command (R104), a decode pass takes
the next frame off `RXBUF` (R101); and the phases between (R21). -/

namespace Sys2Proof.Machine

/-- The core as it takes the host's command: the host presents its spaces, and the operands are latched (R44, R49, R104). -/
def State.take (c : HostCmd) (rest : List HostCmd) (s : State) : State :=
  { s with
    host := rest
    txdata := c.txdata
    out := c.out
    args := { arg0 := c.launch.arg0, arg1 := c.launch.arg1, arg2 := truncCtx s.cfg c.launch.arg2 } }

/-- An idle core: the next command, if the host issues one; else it stays idle (R22, R104, R166). -/
def stepIdle (s : State) : Outcome :=
  match s.host with
  | [] => .next s
  | c :: rest => exec (decodeLaunch c.launch) (s.take c rest)

/-- The loop head a decode pass goes back to when no frame is left (R101). -/
def Phase.afterPass : Phase → Phase
  | .sendPass => .sendWait
  | .recvPass => .recvWait
  | .closePass => .closeWait
  | .waitPass => .waitRead
  | p => p

/-- One turn of the decode pass (R101): NEXTFRAME, then the frame's meaning. -/
def stepPass (s : State) : Outcome :=
  match nextFrame s with
  | (some i, s1) => exec i s1
  | (none, s1) => .next (s1.goto s1.phase.afterPass)

/-- The step of a busy core: from its label to the next (R18, R21). -/
def resume (s : State) : Outcome :=
  match s.phase with
  | .none => .fault .phaseOutsideOp
  | .init => .next (runInit s)
  | .reset => .next (runReset s)
  | .sendEntry => .next (runSend s)
  | .sendRound => .next (stepSendRound s)
  | .sendBurst j => .next (stepSendBurst j s)
  | .sendWrite j => .next (stepSendWrite j s)
  | .sendWait => .next (stepSendWait s)
  | .sendRead => stepSendRead s
  | .sendPass => stepPass s
  | .sendEcho => .next (stepSendEcho s)
  | .sendAdvance => .next (stepSendAdvance s)
  | .sendDone => .next (sendReturn s)
  | .recvEntry => .next (runRecv s)
  | .recvDrain => .next (stepRecvDrain s)
  | .recvWait => stepRecvWait s
  | .recvPass => stepPass s
  | .recvRedrain seq => .next (stepRecvRedrain seq s)
  | .recvReply => .next (stepRecvReply s)
  | .recvEcho => .next (stepRecvEcho s)
  | .closeEntry => .next (runClose s)
  | .closeAttempt => .next (stepCloseAttempt s)
  | .closeWrite => .next (stepCloseWrite s)
  | .closeWait => stepCloseWait s
  | .closePass => stepPass s
  | .closeExhausted => .next (stepCloseExhausted s)
  | .waitEntry => .next (runWait s)
  | .waitRead => .next (stepWaitRead s)
  | .waitPoll => stepWaitPoll s
  | .waitPass => stepPass s
  | .waitReply => .next (stepWaitReply s)
  | .waitDone => .next (stepWaitDone s)

/-- A step of the core: idle, it looks for a command; busy, it goes on from `PHASE` (R22). -/
def nextStep (s : State) : Outcome :=
  if s.op = .idle then stepIdle s
  else if s.phase.op = s.op then resume s
  else .fault .phaseOutsideOp

/-- A command word placed where an idle core takes its next command (log entry 10). -/
def placeCommand (w : Nat) (s : State) : State :=
  { s with
    op := .idle
    phase := .none
    inited := s.inited || decide ((tableLaunch w).cmd ≠ 0)
    host := { launch := tableLaunch w, txdata := [], out := [] } :: s.host }

/-- A frame word placed where RECV's decode pass takes its next frame (log entry 10). -/
def placeFrame (nbits w : Nat) (s : State) : State :=
  { s with
    cfg := tableConfig s.cfg w
    op := .recv
    phase := .recvPass
    inited := true
    rx := (RxBuf.discard s.rx).append (tableFrame nbits w)
    chan := { s.chan with writes := .ok :: s.chan.writes } }

end Sys2Proof.Machine
end

