-- ==== Sys2Proof/Machine/Step.lean ====
section
/-! DEFINITION. One step of the machine, runs of steps, and the placing of one instruction. -/

namespace Sys2Proof.Machine

/-- One step: the core goes from one `PHASE` label to the next, or an idle core takes a command (R18, R21, R104; log entry 3). -/
def step (s : State) : Host.Outcome State Fault Refusal := nextStep s

/-- `n` steps from `s`, stopping at the first fault or refusal. -/
def run : Nat → State → Outcome
  | 0, s => .next s
  | n + 1, s =>
    match step s with
    | .next s1 => run n s1
    | .fault f => .fault f
    | .refused r => .refused r

/-- The bound on the steps from one channel transaction to the next (R13). -/
def State.workBound (s : State) : Nat := s.rx.fill + s.conn.win.length + 64

/-- At most `n` steps from `s`, stopping before the next channel transaction and at the end of the command. -/
def settle : Nat → State → Outcome
  | 0, s => .next s
  | n + 1, s =>
    if s.op = .idle ∨ s.phase.reads ∨ s.phase.writes then .next s
    else
      match step s with
      | .next s1 => settle n s1
      | .fault f => .fault f
      | .refused r => .refused r

/-- The step of rule R13, from a label at a channel transaction: that transaction with the computation that follows it, up to the
next transaction or the completion of the command. It is a run of `step`s (log entry 3). -/
def transactionStep (s : State) : Outcome :=
  match step s with
  | .next s1 => settle s1.workBound s1
  | .fault f => .fault f
  | .refused r => .refused r

/-- The instruction of a table word stored where `step` takes its next instruction (log entry 10). -/
def State.withFetchWord (s : State) (nbits w : Nat) : State :=
  if isCommandWord nbits w then placeCommand w s else placeFrame nbits w s

end Sys2Proof.Machine
end

