-- ==== Sys2Proof/Safety.lean ====
section
/-! DEFINITION. What a safe run keeps: the invariants the spec's rules name, each a decidable predicate on a state, and the
quantities the statements speak of. -/

namespace Sys2Proof.Machine

/-! ### Invariants -/

/-- The reassembly window (R26, R31 a, R33): `W` slots, the cursor inside, no slot longer than `MAXP`; legal parameters. -/
abbrev Window (s : State) : Prop :=
  s.cfg.Legal ∧ s.conn.win.length = s.cfg.w ∧ s.conn.wnd < s.cfg.w ∧ ∀ v ∈ s.conn.win, v.len ≤ s.cfg.maxp

/-- The sequencer (R21, R22, R23): idle, with no place in a rule; or busy, at a place in its own command's rule and initialised,
INIT itself apart. -/
abbrev Control (s : State) : Prop :=
  (s.op = .idle ∧ s.phase = .none) ∨
    (s.op ≠ .idle ∧ s.phase.op = s.op ∧ (s.op = .init ∨ s.inited = true))

/-- Every byte space is in canonical form. -/
abbrev Canonical (s : State) : Prop :=
  s.rx.buf.wf = true ∧ s.txbuf.wf = true ∧ s.txdata.wf = true ∧ s.out.wf = true ∧
    (∀ v ∈ s.conn.win, v.data.wf = true) ∧ ∀ c ∈ s.host, c.txdata.wf = true ∧ c.out.wf = true

/-- The places between a decode pass and the next read (R101, R102). -/
def Phase.betweenPasses : Phase → Bool
  | .sendRound | .sendBurst _ | .sendWrite _ | .sendWait | .sendRead | .sendAdvance | .recvDrain | .recvWait | .closeAttempt
  | .closeWrite | .closeWait | .waitRead | .waitPoll => true
  | _ => false

/-- `RXBUF` (R39, R101, R102): never over its capacity, and between passes empty or the incomplete front of one frame. `TXBUF`
(R48): one whole frame's length at every `ChanWrite`. -/
abbrev Buffered (s : State) : Prop :=
  s.cfg.Legal ∧ s.rx.fill ≤ s.cfg.rxcap ∧
    (s.phase.betweenPasses = true → s.rx.fill = 0 ∨ decodeFrame s.cfg s.rx.bytes = .needMore) ∧
    (s.phase.writes = true → 9 ≤ s.txfill ∧ s.txfill ≤ s.cfg.maxp + 9)

/-- The places of SEND inside a round, with `BURST_I` set (R114 to R121). -/
def Phase.inRound : Phase → Bool
  | .sendBurst _ | .sendWrite _ | .sendWait | .sendRead | .sendPass | .sendEcho | .sendAdvance => true
  | _ => false

/-- Inside the burst's loop (R114). -/
def Phase.inBurst : Phase → Bool
  | .sendBurst _ => true
  | .sendWrite _ => true
  | _ => false

/-- The slots of the burst already dealt with, that of the frame being written among them (R114). -/
def Phase.burstSlot : Phase → Nat
  | .sendBurst j => j
  | .sendWrite j => j + 1
  | _ => 0

/-- SEND's window (R35, R123): at the head of a round bit 0 of `ACKED` is clear and no bit is set at or above the coming
`BURST_I`; inside a round `BURST_I` is that of `REMAIN`, data remain, and no bit is set at or above it; until the burst is out
bit 0 stays clear. -/
abbrev SendWindow (s : State) : Prop :=
  s.cfg.Legal ∧ s.work.remain ≤ s.work.len0 ∧
    (s.phase = .sendRound →
      isAcked s.work.acked 0 = false ∧ s.work.acked >>> burstCount s.cfg s.work.remain = 0) ∧
    (s.phase.inRound = true →
      0 < s.work.remain ∧ s.work.burstI = burstCount s.cfg s.work.remain ∧ s.work.acked >>> s.work.burstI = 0) ∧
    (s.phase.inBurst = true → s.phase.burstSlot ≤ s.work.burstI ∧ isAcked s.work.acked 0 = false)

/-- RECV's output (R37): `OUTCNT` <= `CAP` everywhere, the end of RECV among it, and below it wherever the core may still
receive (R135). -/
abbrev OutBound (s : State) : Prop :=
  s.work.outcnt ≤ s.work.cap ∧
    (s.phase = .recvWait ∨ s.phase = .recvPass → s.work.outcnt < s.work.cap)

/-- All of them. -/
abbrev Sound (s : State) : Prop :=
  Window s ∧ Control s ∧ Canonical s ∧ Buffered s ∧ SendWindow s ∧ OutBound s

/-! ### Quantities the statements speak of -/

/-- The loop of DRAIN (R130), for at most `n` turns. -/
def drainLoop : Nat → State → State
  | 0, s => s
  | n + 1, s =>
    match drainTurn s with
    | some s1 => drainLoop n s1
    | none => s

/-- `DRAIN` (R130) run to the end of its loop. Each turn but the last empties a slot, so no more turns are made than there are
slots. -/
def drain (s : State) : State := drainLoop s.conn.win.length s

/-- The heads of the decode passes (R101). -/
def Phase.atPass : Phase → Bool
  | .sendPass | .recvPass | .closePass | .waitPass => true
  | _ => false

/-- At most `n` steps, up to the end of a frame's handling: the head of a decode pass, or the end of the command. -/
def untilPass : Nat → State → Outcome
  | 0, s => .next s
  | n + 1, s =>
    if s.op = .idle ∨ s.phase.atPass then .next s
    else
      match step s with
      | .next s1 => untilPass n s1
      | .fault f => .fault f
      | .refused r => .refused r

/-- A frame handled whole (R101): its meaning, and the steps up to the next frame or the end of the command, which are the drain's
turns and the write of the answer. -/
def handleFrame (i : Instr) (s : State) : Outcome :=
  match exec i s with
  | .next t => untilPass (t.conn.win.length + 2) t
  | .fault f => .fault f
  | .refused r => .refused r

/-- The bytes of the occupied slots from index `i` up to the first empty one, at most `n` slots. -/
def pendingFrom (w : Nat) (c : Conn) : Nat → Nat → List Byte
  | 0, _ => []
  | n + 1, i => if (c.slot i).len = 0 then [] else (c.slot i).bytes ++ pendingFrom w c n ((i + 1) % w)

/-- The bytes the window holds in order: what a drain could deliver (R130). -/
def State.pending (s : State) : List Byte := pendingFrom s.cfg.w s.conn s.cfg.w s.conn.wnd

/-- The command an idle core is going to take. -/
def State.nextCommand (s : State) : Option Instr :=
  if s.op = .idle then s.host.head?.map fun c => decodeLaunch c.launch else none

/-- The step INIT or RESET makes: it is the command the core takes, or the one it is in (R27, R105, R106). -/
abbrev StartsOver (s : State) : Prop :=
  s.op = .init ∨ s.op = .reset ∨ s.nextCommand = some .reset ∨
    (s.op = .idle ∧ ∃ r t x, s.nextCommand = some (.init r t x))

/-- The frames taken off `RXBUF`: the front of `RXBUF` is a whole frame whose class is `k` (R93, R94). -/
abbrev FrontIs (s : State) (k : FrameClass) : Prop :=
  ∃ p used, decodeFrame s.cfg s.rx.bytes = .packet p used ∧ classify s.cfg p.flag = k

/-- One `ChanRead` among the transactions. -/
def Transaction.isRead : Transaction → Bool
  | .read .. => true
  | .write .. => false

/-- The number of `ChanRead`s made so far. -/
def State.readsMade (s : State) : Nat := s.chan.trace.countP Transaction.isRead

/-- The number of `ChanWrite`s made so far. -/
def State.writesMade (s : State) : Nat := s.chan.trace.countP fun t => !t.isRead

/-- The frame of burst slot j (R114, row a of R69). -/
def State.burstFrame (s : State) (j : Nat) : List Byte :=
  encodeFrame (flagData s.cfg) (s.conn.seq + BitVec.ofNat 16 j) s.conn.ack (burstPayload s j)

/-- The frames of the burst slots `lo` .. `lo + n - 1` whose bit of `ACKED` is clear, in ascending order (R115). -/
def State.unackedFrames (s : State) (lo : Nat) : Nat → List (List Byte)
  | 0 => []
  | n + 1 => (if isAcked s.work.acked lo then [] else [s.burstFrame lo]) ++ s.unackedFrames (lo + 1) n

/-- `n` reads the channel answers with nothing, then what it answers anyway (R175: a silent channel). -/
def silent (n : Nat) (rest : List ReadAnswer) : List ReadAnswer := List.replicate n (.bytes []) ++ rest

/-- max(1, `MAX_TIMEOUT`): the empty reads that end a wait (R99, R175). -/
def State.patience (s : State) : Nat := max 1 s.conn.maxTimeout.toNat

/-- SEND has advanced past exactly `n` packets since `SEQ` was `start` (R122). -/
abbrev Advanced (start : Seq) (n : Nat) (s : State) : Prop :=
  s.conn.seq = start + BitVec.ofNat 16 n ∧ s.work.remain = s.work.len0 - n * s.cfg.maxp

/-- The data frames of `payloads`, numbered from `first` up, handed to the core in the order of the index list (R137). -/
def feedData (first : Seq) (payloads : List (List Byte)) : List Nat → State → Outcome
  | [], s => .next s
  | i :: order, s =>
    match handleFrame (.data (first + BitVec.ofNat 16 i) 0 (payloads.getD i [])) s with
    | .next t => feedData first payloads order t
    | .fault f => .fault f
    | .refused r => .refused r

end Sys2Proof.Machine
end

