-- ==== Sys2Proof/Certificates/Slice0/Obligations.lean ====
section
/-! DEFINITION. The statements for the provers. Each docstring names the rule it formalises.

`PHASE` labels that stand in a statement are those of rule R21 and, where files 41 to 44 write none, the model's own (log
entries 3, 13); a finished command's `PHASE` is the model's `none` (log entry 7). Issuing a command runs its entry (log entry 3).
`txfill`, the length of the frame in `TXBUF`, is the model's own (log entry 14). Where a statement gives the whole state in which a
command has ended, that the working registers, `RXBUF`, `RXFILL` and `TXBUF` keep their last values is log entry 24. -/

open Sys2Proof Sys2Proof.Machine

/-! ### Reset, fetch, refusals -/

/-- R42, R170 (what they give a value for): whatever the parameters, hardware reset leaves the core idle with `INITED` = 0;
`OUT`, `TXDATA` and the rest are the model's values (log entry 2) and are not stated; `State.reset` is the reset of the sample
core (log entry 1). R22, R166: an idle core for which no command waits changes nothing, in every state, so the core does nothing
after reset until the host issues a command. (That the host's commands wait in a list is log entry 5.) -/
def Obligations.ResetIsIdleAndUninitialised : Prop :=
  ∀ c : Config, (State.resetWith c).cfg = c ∧ (State.resetWith c).op = .idle ∧ (State.resetWith c).inited = false ∧
    step (State.resetWith c) = .next (State.resetWith c) ∧ State.reset = State.resetWith Config.sample ∧
    ∀ s : State, s.op = .idle → s.host = [] → step s = .next s

/-- The invariants of Safety.lean hold at the reset of every core with legal parameters (R6, R7, R10), whose registers hold the
model's reset values (log entries 1, 2, 11). -/
def Obligations.ResetIsSound : Prop := ∀ c : Config, c.Legal → Sound (State.resetWith c)

/-- R104: an idle core takes the host's next command: its operands are latched, the host's spaces are presented with it, and
the step is the command's meaning at that state. (The queue of commands and the presenting of the spaces are the model's own
input, log entry 5; that `ARG2` is cut to `CTXW` bits is log entry 12.) -/
def Obligations.StepRunsIssuedCommand : Prop :=
  ∀ (s : State) (c : HostCmd) (rest : List HostCmd), s.op = .idle → s.host = c :: rest →
    step s = exec (decodeLaunch c.launch)
      { s with
        host := rest
        txdata := c.txdata
        out := c.out
        args := { arg0 := c.launch.arg0, arg1 := c.launch.arg1, arg2 := c.launch.arg2 % 2 ^ s.cfg.ctxw } }

/-- R101: in a decode pass, when the front of `RXBUF` is a whole valid frame, the step takes its bytes off `RXBUF` and is the
meaning of that frame's instruction at the state left. -/
def Obligations.StepRunsDecodedFrame : Prop :=
  ∀ (s : State) (p : Packet) (used : Nat),
    ((s.op = .send ∧ s.phase = .sendPass) ∨ (s.op = .recv ∧ s.phase = .recvPass) ∨
      (s.op = .close ∧ s.phase = .closePass) ∨ (s.op = .wait ∧ s.phase = .waitPass)) →
    decodeFrame s.cfg s.rx.bytes = .packet p used →
    step s = exec p.instr { s with rx := s.rx.consume used }

/-- R171, R172, R75: every command but INIT is refused while `INITED` = 0, every command is refused by a busy core, SEND and
RECV refuse a count of 2^31 or more; and RECV's data arm refuses a payload longer than `MAXP`, which no decoded frame has
(R64, R68 b; log entry 21). -/
def Obligations.InstructionsOutsideTheirDomainAreRefused : Prop :=
  (∀ (s : State) (i : Instr), i.isFrame = false → s.op ≠ .idle → exec i s = .refused .busyCore) ∧
  (∀ (s : State) (i : Instr), i.isFrame = false → s.op = .idle → s.inited = false →
    (exec i s = .refused .notInited ∨ ∃ r t x, i = .init r t x)) ∧
  (∀ (s : State) (n : Word), s.op = .idle → s.inited = true → 2 ^ 31 ≤ n.toNat →
    exec (.send n) s = .refused .countTooLarge ∧ exec (.recv n) s = .refused .countTooLarge) ∧
  (∀ (s : State) (q a : Seq) (pl : List Byte), s.op = .recv → s.phase = .recvPass → s.cfg.maxp < pl.length →
    exec (.data q a pl) s = .refused .payloadTooLong)

/-- R47, U7: a scripted answer longer than the `max_len` asked for has no meaning; every read point refuses it. -/
def Obligations.OverlongAnswerIsRefused : Prop :=
  ∀ (s : State) (bs : List Byte) (rest : List ReadAnswer),
    s.chan.reads = .bytes bs :: rest → s.cfg.rxcap - s.rx.fill < bs.length →
    ((s.op = .send ∧ s.phase = .sendRead) ∨ (s.op = .recv ∧ s.phase = .recvWait) ∨
      (s.op = .close ∧ s.phase = .closeWait) ∨ (s.op = .wait ∧ s.phase = .waitPoll)) →
    step s = .refused .readAnswerTooLong

/-! ### Encodings and the codec -/

/-- Words written out from the spec's tables (30_encoding.md R60, R61, R74; vectors V-D5, V-E4, V-E5, V-D18) decode to the
instructions they stand for. -/
def Obligations.SpecWordsDecode : Prop :=
  let c : Config := { w := 4, maxp := 4, tag := 0b101010, rxcap := 26, ctxw := 32, flag11 := .ack }
  decode c (.frame [0xA8, 0x00, 0x01, 0x00, 0x00, 0x00, 0x02, 0x68, 0x69, 0x2C, 0x9E]) = .ok (.data 1 0 [0x68, 0x69]) ∧
  decode c (.frame [0xA9, 0x00, 0x00, 0x00, 0x05, 0x00, 0x00, 0xE4, 0x03]) = .ok (.ack 0 5 []) ∧
  decode c (.frame [0xAA, 0x00, 0x03, 0x00, 0x07, 0x00, 0x00, 0x98, 0x04]) = .ok (.fin 3 7 []) ∧
  decode c (.frame [0xAB, 0x00, 0x02, 0x00, 0x03, 0x00, 0x00, 0x8C, 0x03]) = .ok (.flag11 2 3 []) ∧
  decode c (.command { cmd := 0b000, arg0 := 5, arg1 := 3, arg2 := 7 }) = .ok (.init 5 3 7) ∧
  decode c (.command { cmd := 0b001, arg0 := 0, arg1 := 0, arg2 := 0 }) = .ok .reset ∧
  decode c (.command { cmd := 0b010, arg0 := 100, arg1 := 0, arg2 := 0 }) = .ok (.send 100) ∧
  decode c (.command { cmd := 0b011, arg0 := 100, arg1 := 0, arg2 := 0 }) = .ok (.recv 100) ∧
  decode c (.command { cmd := 0b100, arg0 := 3, arg1 := 0, arg2 := 0 }) = .ok (.close 3) ∧
  decode c (.command { cmd := 0b101, arg0 := 4, arg1 := 0, arg2 := 0 }) = .ok (.wait 4) ∧
  decode c (.command { cmd := 0b110, arg0 := 0, arg1 := 0, arg2 := 0 }) = .ok .isclosed ∧
  decode c (.command { cmd := 0b111, arg0 := 0, arg1 := 0, arg2 := 0 }) = .ok .setclosed

/-- R103: DECODE of ENCODE, followed by any bytes, gives the identical tuple and its length. -/
def Obligations.EncodedFrameDecodesBack : Prop :=
  ∀ (c : Config) (flag : Byte) (seq ack : Seq) (payload rest : List Byte),
    c.maxp ≤ 65535 → tagOf flag = c.tag → payload.length ≤ c.maxp →
    decodeFrame c (encodeFrame flag seq ack payload ++ rest) =
      .packet { flag := flag, seq := seq, ack := ack, payload := payload } (payload.length + 9)

/-- The other direction: a frame DECODE accepts is exactly ENCODE of the tuple it gives (R60, R92, R93), and its payload, length
and tag are in range. -/
def Obligations.DecodedFrameIsEncoded : Prop :=
  ∀ (c : Config) (bs : List Byte) (p : Packet) (used : Nat), decodeFrame c bs = .packet p used →
    bs.take used = encodeFrame p.flag p.seq p.ack p.payload ∧ used = p.payload.length + 9 ∧ used ≤ bs.length ∧
      p.payload.length ≤ c.maxp ∧ tagOf p.flag = c.tag

/-- Decode of encode is the instruction, for every well-formed instruction of the table, every operand at every value its
encoding admits. -/
def Obligations.DecodeOfEncodeIsTheInstruction : Prop :=
  ∀ (c : Config) (i : Instr), c.maxp ≤ 65535 → i.WellFormed c → decode c (encode c i) = .ok i

/-- R91 (a): each checksum step is a bijection on the accumulator for a fixed byte, different bytes give different results from
the same accumulator, and so two sequences that differ in exactly one byte have different checksums. -/
def Obligations.ChecksumSeesOneByte : Prop :=
  (∀ b : Byte, Function.Bijective fun acc => csumStep acc b) ∧
  (∀ (acc : BitVec 16) (b b' : Byte), b ≠ b' → csumStep acc b ≠ csumStep acc b') ∧
  (∀ (xs ys : List Byte) (b b' : Byte), b ≠ b' → csum (xs ++ b :: ys) ≠ csum (xs ++ b' :: ys))

/-- R91 (a): a corruption confined to one byte of `flag`, `seq`, `ack` or the payload of a frame is always detected: DECODE
calls the damaged frame `Invalid`. -/
def Obligations.OneDamagedByteIsInvalid : Prop :=
  ∀ (c : Config) (flag : Byte) (seq ack : Seq) (payload rest : List Byte) (i : Nat) (b : Byte),
    c.maxp ≤ 65535 → tagOf flag = c.tag → payload.length ≤ c.maxp →
    i < 7 + payload.length → i ≠ 5 → i ≠ 6 → b ≠ byteAt (encodeFrame flag seq ack payload) i →
    ∃ why, decodeFrame c ((encodeFrame flag seq ack payload).set i b ++ rest) = .invalid why

/-! ### RXBUF and the read port -/

/-- R59: the three operations on `RXBUF`, said of its valid bytes. -/
def Obligations.RxbufOperations : Prop :=
  (∀ (r : RxBuf) (bs : List Byte), (r.append bs).bytes = r.bytes ++ bs ∧ (r.append bs).fill = r.fill + bs.length) ∧
  (∀ (r : RxBuf) (n : Nat), n ≤ r.fill → (r.consume n).bytes = r.bytes.drop n ∧ (r.consume n).fill = r.fill - n) ∧
  (∀ r : RxBuf, r.discard.bytes = [] ∧ r.discard.fill = 0)

/-- R100: NEXTFRAME. On `NeedMore` nothing changes; on `Invalid` everything is discarded; on a packet exactly its bytes leave
the front of `RXBUF`. Nothing but `RXBUF` changes. -/
def Obligations.NextFrameTakesOneFrame : Prop :=
  ∀ s : State,
    (decodeFrame s.cfg s.rx.bytes = .needMore → nextFrame s = (none, s)) ∧
    (∀ why, decodeFrame s.cfg s.rx.bytes = .invalid why →
      (nextFrame s).1 = none ∧ (nextFrame s).2.rx.bytes = [] ∧ { (nextFrame s).2 with rx := s.rx } = s) ∧
    (∀ p used, decodeFrame s.cfg s.rx.bytes = .packet p used →
      (nextFrame s).1 = some p.instr ∧ (nextFrame s).2.rx.bytes = s.rx.bytes.drop used ∧
        { (nextFrame s).2 with rx := s.rx } = s)

/-- R99: RXREAD, for each answer the channel can give. A non-empty read does not touch `TICKS`. -/
def Obligations.RxreadByAnswer : Prop :=
  ∀ s : State,
    (s.readAnswer (s.cfg.rxcap - s.rx.fill) = .err →
      (rxRead s).1 = .raised ∧ (rxRead s).2.result = -1 ∧ (rxRead s).2.op = .idle ∧ (rxRead s).2.conn = s.conn ∧
        (rxRead s).2.work = s.work) ∧
    (s.readAnswer (s.cfg.rxcap - s.rx.fill) = .bytes [] →
      (rxRead s).2.work = { s.work with ticks := s.work.ticks + 1 } ∧ (rxRead s).2.rx = s.rx ∧
        (rxRead s).1 = if s.conn.maxTimeout ≤ s.work.ticks + 1 then .timedOut else .tick) ∧
    (∀ b bs, s.readAnswer (s.cfg.rxcap - s.rx.fill) = .bytes (b :: bs) → bs.length + 1 ≤ s.cfg.rxcap - s.rx.fill →
      (rxRead s).1 = .got ∧ (rxRead s).2.rx.bytes = s.rx.bytes ++ b :: bs ∧ (rxRead s).2.work = s.work ∧
        (rxRead s).2.conn = s.conn)

/-- R99, R143, R150, R154: a read answered `Err` ends whatever command made it: `RESULT` = -1, the core is idle, and nothing else
changes but the channel. -/
def Obligations.ReadErrorEndsTheCommand : Prop :=
  ∀ s : State, s.readAnswer (s.cfg.rxcap - s.rx.fill) = .err →
    ((s.op = .send ∧ s.phase = .sendRead) ∨ (s.op = .recv ∧ s.phase = .recvWait) ∨
      (s.op = .close ∧ s.phase = .closeWait) ∨ (s.op = .wait ∧ s.phase = .waitPoll)) →
    step s = .next
      { s with result := -1, op := .idle, phase := .none, chan := (s.logRead (s.cfg.rxcap - s.rx.fill)).chan }

/-! ### Connection-state commands -/

/-- R105: INIT on any idle core, initialised or not. -/
def Obligations.InitCreatesTheConnection : Prop :=
  ∀ (s : State) (r t : Word) (x : Nat), s.op = .idle → x < 2 ^ s.cfg.ctxw →
    exec (.init r t x) s = .next
      { s with
        phase := .none
        inited := true
        result := 0
        args := { arg0 := r, arg1 := t, arg2 := x }
        conn :=
          { seq := 0, ack := 0, wnd := 0, closed := false, maxRetrans := r, maxTimeout := t, ctx := x,
            win := s.conn.win.map fun v => { len := 0, data := v.data } } }

/-- R106: RESET re-zeroes the counters, `CLOSED`, `WND` and the slot lengths and keeps the configuration. -/
def Obligations.ResetRearmsTheConnection : Prop :=
  ∀ s : State, s.op = .idle → s.inited = true →
    exec .reset s = .next
      { s with
        phase := .none
        result := 0
        conn :=
          { s.conn with
            seq := 0, ack := 0, wnd := 0, closed := false
            win := s.conn.win.map fun v => { len := 0, data := v.data } } }

/-- R107, R108: ISCLOSED returns `CLOSED` and changes nothing else; SETCLOSED sets `CLOSED` and returns 0. Neither touches the
channel. -/
def Obligations.IsclosedAndSetclosed : Prop :=
  ∀ s : State, s.op = .idle → s.inited = true →
    exec .isclosed s = .next { s with phase := .none, result := if s.conn.closed then 1 else 0 } ∧
    exec .setclosed s = .next { s with phase := .none, result := 0, conn := { s.conn with closed := true } }

/-! ### Issuing the long commands -/

/-- R113 (entry): SEND on a closed connection raises `ERR_FINAL` whatever `L` is; on an open one it sets its working registers,
discards `RXBUF` and stands at the head of its round loop. -/
def Obligations.SendIsIssued : Prop :=
  ∀ (s : State) (n : Word), s.op = .idle → s.inited = true → n.toNat < 2 ^ 31 →
    exec (.send n) s = .next
      (if s.conn.closed then
        { s with phase := .none, result := -3, args := { s.args with arg0 := n } }
      else
        { s with
          op := .send
          phase := .sendRound
          args := { s.args with arg0 := n }
          rx := { s.rx with fill := 0 }
          work := { s.work with len0 := n.toNat, remain := n.toNat, acked := 0, retry := 0 } })

/-- R128, R129 (entry): RECV drains first, from `recv_drain`; then, in this order, a full output returns, a closed connection
raises `ERR_FINAL` or returns what the drain delivered, and an open one goes to its channel loop. No case touches the channel. -/
def Obligations.RecvIsIssued : Prop :=
  ∀ (s : State) (n : Word), s.op = .idle → s.inited = true → n.toNat < 2 ^ 31 →
    ∃ (s1 d : State) (k : Nat),
      s1 = { s with
        op := .recv
        phase := .recvDrain
        args := { s.args with arg0 := n }
        rx := { s.rx with fill := 0 }
        work := { s.work with cap := n.toNat, outcnt := 0 } } ∧
      exec (.recv n) s = .next s1 ∧
      d = drain s1 ∧ d.chan = s.chan ∧ d.conn.closed = s.conn.closed ∧ k ≤ s.conn.win.length + 1 ∧
      run k s1 = .next
        (if d.work.outcnt = n.toNat then { d with op := .idle, phase := .none, result := BitVec.ofNat 32 d.work.outcnt }
        else if s.conn.closed then
          if d.work.outcnt = 0 then { d with op := .idle, phase := .none, result := -3 }
          else { d with op := .idle, phase := .none, result := BitVec.ofNat 32 d.work.outcnt }
        else { d with phase := .recvWait, work := { d.work with ticks := 0 } })

/-- R140 (entry): CLOSE on a closed connection returns 0 and does nothing else; on an open one it discards `RXBUF`, clears
`ATTEMPT` and stands at the head of its attempt loop. -/
def Obligations.CloseIsIssued : Prop :=
  ∀ (s : State) (n : Word), s.op = .idle → s.inited = true →
    exec (.close n) s = .next
      (if s.conn.closed then
        { s with phase := .none, result := 0, args := { s.args with arg0 := n } }
      else
        { s with
          op := .close
          phase := .closeAttempt
          args := { s.args with arg0 := n }
          rx := { s.rx with fill := 0 }
          work := { s.work with attempt := 0 } })

/-- R143 (entry), R144: WAIT runs the same whether or not the connection is closed: it discards `RXBUF`, sets `BUDGET_LEFT` and
stands at the head of its read loop. -/
def Obligations.WaitIsIssued : Prop :=
  ∀ (s : State) (n : Word), s.op = .idle → s.inited = true →
    exec (.wait n) s = .next
      { s with
        op := .wait
        phase := .waitRead
        args := { s.args with arg0 := n }
        rx := { s.rx with fill := 0 }
        work := { s.work with budgetLeft := n } }

/-! ### The send engine -/

/-- R114 (the start of BURST) and R113 (the loop's end): with data left `BURST_I` is min(`W`, ceil(`REMAIN` / `MAXP`)), between
1 and `W`; with none the command is done and `RESULT` is `LEN0 - REMAIN`. -/
def Obligations.RoundBeginsOrEnds : Prop :=
  ∀ s : State, s.op = .send → s.phase = .sendRound → s.cfg.Legal →
    (0 < s.work.remain → ∃ n : Nat,
      (n = s.cfg.w ∨ (n < s.cfg.w ∧ s.work.remain ≤ n * s.cfg.maxp ∧ (n - 1) * s.cfg.maxp < s.work.remain)) ∧
        1 ≤ n ∧ n ≤ s.cfg.w ∧ (n - 1) * s.cfg.maxp < s.work.remain ∧
        step s = .next { s with phase := .sendBurst 0, work := { s.work with burstI := n } }) ∧
    (s.work.remain = 0 → run 2 s = .next
      { s with op := .idle, phase := .none, result := BitVec.ofNat 32 (s.work.len0 - s.work.remain) })

/-- R114, R95, R69 (a): one slot of the burst whose bit of `ACKED` is clear. The frame
DATA(`SEQ` + j, `ACK`, the bytes at offset j * `MAXP` of the unsent data) is made in `TXBUF`, and exactly that frame is written; on
`Err` the command ends with `ERR_TX`. Nothing else changes but `TXBUF` and the channel. -/
def Obligations.BurstWritesOneSlot : Prop :=
  ∀ (s : State) (j : Nat), s.op = .send → s.phase = .sendBurst j → j < s.work.burstI →
    isAcked s.work.acked j = false →
    ∃ (pl f : List Byte) (u t : State),
      pl = s.txdata.readBytes (s.work.len0 - s.work.remain + j * s.cfg.maxp)
        (min ((j + 1) * s.cfg.maxp) s.work.remain - j * s.cfg.maxp) ∧
      f = encodeFrame (BitVec.ofNat 8 (4 * s.cfg.tag.toNat)) (s.conn.seq + BitVec.ofNat 16 j) s.conn.ack pl ∧
      u = { s with phase := .sendWrite j, txbuf := s.txbuf.writeBytes 0 f, txfill := f.length } ∧
      t = { u with chan := (s.logWrite f).chan } ∧
      step s = .next u ∧
      (s.writeAnswer = .ok → step u = .next { t with phase := .sendBurst (j + 1) }) ∧
      (s.writeAnswer = .err → step u = .next { t with op := .idle, phase := .none, result := -2 })

/-- R115: when every write is answered `Ok`, the burst writes exactly the frames of the slots whose bit of `ACKED` is clear, in
ascending order, and then begins the wait with `RETRY` one higher and `TICKS` = 0. -/
def Obligations.BurstWritesExactlyTheUnacknowledged : Prop :=
  ∀ (s : State) (ws : List WriteAnswer), s.op = .send → s.phase = .sendBurst 0 →
    s.chan.writes = List.replicate (s.unackedFrames 0 s.work.burstI).length .ok ++ ws →
    ∃ t : State, run (s.work.burstI + (s.unackedFrames 0 s.work.burstI).length + 1) s = .next t ∧
      t.chan.trace = ((s.unackedFrames 0 s.work.burstI).map fun f => Transaction.write s.conn.ctx f .ok).reverse ++ s.chan.trace ∧
      t.op = .send ∧ t.phase = .sendWait ∧ t.work = { s.work with retry := s.work.retry + 1, ticks := 0 } ∧
      t.conn = s.conn ∧ t.rx = s.rx ∧ t.chan.writes = ws ∧ t.chan.reads = s.chan.reads

/-- R116, R120: the wait is left, with no read, as soon as the whole burst is acknowledged or a FIN has closed the connection;
then `RETRY` >= `MAX_RETRANS` ends the command with the count so far, and otherwise the window is advanced. In every other case the
wait goes on to its read. -/
def Obligations.WaitForAckIsLeft : Prop :=
  ∀ s : State, s.op = .send → s.phase = .sendWait → s.work.burstI ≤ 32 →
    ((∀ j < s.work.burstI, isAcked s.work.acked j = true) ∨ s.conn.closed = true →
      step s = .next
        (if s.conn.maxRetrans ≤ s.work.retry then
          { s with op := .idle, phase := .none, result := BitVec.ofNat 32 (s.work.len0 - s.work.remain) }
        else { s with phase := .sendAdvance })) ∧
    ((∃ j < s.work.burstI, isAcked s.work.acked j = false) → s.conn.closed = false →
      step s = .next { s with phase := .sendRead })

/-- R121: ADVANCE. k is the number of consecutive 1 bits of `ACKED` from bit 0 up (over `W` bits), at most `BURST_I` where no bit
is set above it (R123 b); `SEQ`, `REMAIN` and `ACKED` move by k; then a closed connection ends the loop (R113). -/
def Obligations.AdvanceSlidesTheWindow : Prop :=
  ∀ s : State, s.op = .send → s.phase = .sendAdvance →
    ∃ k : Nat, k ≤ s.cfg.w ∧ (∀ j < k, isAcked s.work.acked j = true) ∧
      (k = s.cfg.w ∨ isAcked s.work.acked k = false) ∧
      (s.work.acked >>> s.work.burstI = 0 → k ≤ s.work.burstI) ∧
      step s = .next
        { s with
          phase := if s.conn.closed then .sendDone else .sendRound
          conn := { s.conn with seq := s.conn.seq + BitVec.ofNat 16 k }
          work := { s.work with remain := s.work.remain - k * s.cfg.maxp, acked := s.work.acked >>> k } }

/-- R117, R118: in SEND's decode pass an ACK frame sets the one bit its `ack` names, if it is inside the burst, and a data frame
sets none; both clear `TICKS` and `RETRY`, and nothing else changes. -/
def Obligations.AckAndDataFramesInSend : Prop :=
  ∀ (s : State) (q a : Seq) (pl : List Byte), s.op = .send → s.phase = .sendPass → s.work.burstI ≤ 32 →
    exec (.data q a pl) s = .next { s with work := { s.work with ticks := 0, retry := 0 } } ∧
    ∃ m : Word,
      (∀ j < 32, isAcked m j =
        (isAcked s.work.acked j || (decide (j = (a - s.conn.seq).toNat) && decide ((a - s.conn.seq).toNat < s.work.burstI)))) ∧
      exec (.ack q a pl) s = .next { s with work := { s.work with ticks := 0, retry := 0, acked := m } }

/-- R119: in SEND's decode pass a FIN frame sets every bit below the offset its `ack` names, if that is 1 .. `BURST_I`; the
echo copies the received `seq` and `ack`; then `CLOSED` is set and the decode pass goes on. On `Err` the command ends with `ERR_TX`
and `CLOSED` is not set. -/
def Obligations.FinFrameInSend : Prop :=
  ∀ (s : State) (q a : Seq) (pl : List Byte), s.op = .send → s.phase = .sendPass → s.work.burstI ≤ 32 →
    ∃ (m : Word) (f : List Byte) (u t : State),
      (∀ j < 32, isAcked m j =
        (isAcked s.work.acked j || (decide (j < (a - s.conn.seq).toNat) && decide ((a - s.conn.seq).toNat ≤ s.work.burstI)))) ∧
      f = encodeFrame (BitVec.ofNat 8 (4 * s.cfg.tag.toNat + 2)) q a [] ∧
      u = { s with
        phase := .sendEcho
        txbuf := s.txbuf.writeBytes 0 f
        txfill := f.length
        work := { s.work with ticks := 0, retry := 0, acked := m } } ∧
      t = { u with chan := (s.logWrite f).chan } ∧
      exec (.fin q a pl) s = .next u ∧
      (s.writeAnswer = .ok → step u = .next { t with phase := .sendPass, conn := { s.conn with closed := true } }) ∧
      (s.writeAnswer = .err → step u = .next { t with op := .idle, phase := .none, result := -2 })

/-- R122: while SEND runs, `SEQ` and `REMAIN` stay in step with the number n of packets advanced past; when it ends, its result
is an error code or min(`L`, n * `MAXP`), with `SEQ` exactly n further. -/
def Obligations.SendCountsThePacketsAdvanced : Prop :=
  ∀ (s t : State) (start : Seq) (n : Nat), s.op = .send → s.phase ≠ .sendEntry → Advanced start n s → step s = .next t →
    ∃ m, n ≤ m ∧ Advanced start m t ∧ t.work.len0 = s.work.len0 ∧
      ((t.op = .send ∧ t.phase ≠ .sendEntry) ∨
        (t.op = .idle ∧ (t.result = -1 ∨ t.result = -2 ∨
          t.result = BitVec.ofNat 32 (min t.work.len0 (m * s.cfg.maxp)))))

/-- R175 (SEND): against a silent channel SEND makes max(1, `MAX_RETRANS`) rounds, each with max(1, `MAX_TIMEOUT`) empty reads
and one write for every packet of the burst, and returns 0 with `SEQ` unmoved. -/
def Obligations.SendAgainstASilentChannel : Prop :=
  ∀ (s s1 : State) (n : Word) (rounds : Nat) (rs : List ReadAnswer) (ws : List WriteAnswer),
    s.cfg.Legal → s.op = .idle → s.inited = true → s.conn.closed = false → 0 < n.toNat → n.toNat < 2 ^ 31 →
    rounds = max 1 s.conn.maxRetrans.toNat →
    s.chan.reads = silent (rounds * s.patience) rs →
    s.chan.writes = List.replicate (rounds * burstCount s.cfg n.toNat) .ok ++ ws →
    exec (.send n) s = .next s1 →
    ∃ (k : Nat) (t : State), run k s1 = .next t ∧ t.op = .idle ∧ t.result = 0 ∧ t.conn = s.conn ∧
      t.chan.reads = rs ∧ t.chan.writes = ws ∧
      t.readsMade = s.readsMade + rounds * s.patience ∧
      t.writesMade = s.writesMade + rounds * burstCount s.cfg n.toNat

/-- R113 to R121 together, for a SEND of one packet: if the peer's ACK for it is the first thing read, SEND returns `L` and `SEQ`
has moved by one; exactly one data frame was written. -/
def Obligations.SendOfOnePacketCompletes : Prop :=
  ∀ (s s1 : State) (n : Word) (q : Seq) (rs : List ReadAnswer) (ws : List WriteAnswer),
    s.cfg.Legal → s.op = .idle → s.inited = true → s.conn.closed = false → 1 ≤ s.conn.maxRetrans.toNat →
    0 < n.toNat → n.toNat ≤ s.cfg.maxp →
    s.chan.reads = .bytes (encodeFrame (flagAck s.cfg) q s.conn.seq []) :: rs → s.chan.writes = .ok :: ws →
    exec (.send n) s = .next s1 →
    ∃ (k : Nat) (t : State), run k s1 = .next t ∧ t.op = .idle ∧ t.result = n ∧
      t.conn = { s.conn with seq := s.conn.seq + 1 } ∧ t.chan.reads = rs ∧ t.chan.writes = ws ∧
      t.chan.trace =
        .read s.conn.ctx s.cfg.rxcap (.bytes (encodeFrame (flagAck s.cfg) q s.conn.seq [])) ::
          .write s.conn.ctx
            (encodeFrame (flagData s.cfg) s.conn.seq s.conn.ack (s.txdata.readBytes 0 n.toNat)) .ok :: s.chan.trace

/-! ### The receive engine -/

/-- R130: what DRAIN delivers. The bytes it writes to `OUT`, followed by what the window still holds in order, are what the
window held in order before; it stops only at `CAP` or at a gap; `ACK` and `WND` move together, once per slot fully consumed
(one whose bytes just fit among them); the new head slot is untouched or partially consumed, then with bytes left; bytes of
`OUT` outside what it delivers, and everything else, stay. -/
def Obligations.DrainDeliversInOrder : Prop :=
  ∀ s t : State, Window s → s.work.outcnt ≤ s.work.cap → t = drain s →
    t.out.readBytes s.work.outcnt (t.work.outcnt - s.work.outcnt) ++ t.pending = s.pending ∧
    s.work.outcnt ≤ t.work.outcnt ∧ t.work.outcnt ≤ s.work.cap ∧
    (t.work.outcnt = s.work.cap ∨ t.pending = []) ∧
    (∀ a, a < s.work.outcnt ∨ t.work.outcnt ≤ a → t.out.read a = s.out.read a) ∧
    (∃ k ≤ s.cfg.w, t.conn.ack = s.conn.ack + BitVec.ofNat 16 k ∧ t.conn.wnd = (s.conn.wnd + k) % s.cfg.w ∧
      (∀ j < k, (s.conn.slot ((s.conn.wnd + j) % s.cfg.w)).len ≠ 0 ∧
        (t.conn.slot ((s.conn.wnd + j) % s.cfg.w)).len = 0) ∧
      (∀ j < s.cfg.w, k < j →
        t.conn.slot ((s.conn.wnd + j) % s.cfg.w) = s.conn.slot ((s.conn.wnd + j) % s.cfg.w)) ∧
      (k < s.cfg.w → t.conn.slot t.conn.wnd = s.conn.slot t.conn.wnd ∨
        (t.work.outcnt = s.work.cap ∧ 0 < (t.conn.slot t.conn.wnd).len ∧
          (t.conn.slot t.conn.wnd).len < (s.conn.slot t.conn.wnd).len))) ∧
    t = { s with
      out := t.out
      work := { s.work with outcnt := t.work.outcnt }
      conn := { s.conn with ack := t.conn.ack, wnd := t.conn.wnd, win := t.conn.win } }

/-- R134, R135, R69 (b): a data frame in RECV's decode pass. Inside the window, with its slot empty and a payload, it is stored
and the window drained; in every case the ACK reply naming its `seq` is written; on `Ok` the command ends if the output is
full and the decode pass goes on otherwise; on `Err` it ends with `ERR_TX` and the store and drain stay made. -/
def Obligations.DataFrameInRecv : Prop :=
  ∀ (s : State) (q a : Seq) (pl : List Byte), s.op = .recv → s.phase = .recvPass → pl.length ≤ s.cfg.maxp →
    ∃ (d i : Nat) (s1 s2 u t : State) (f : List Byte),
      d = (q - s.conn.ack).toNat ∧ i = (d + s.conn.wnd) % s.cfg.w ∧
      f = encodeFrame (BitVec.ofNat 8 (4 * s.cfg.tag.toNat + 1)) s.conn.seq q [] ∧
      s1 = { s with work := { s.work with ticks := 0 } } ∧
      s2 = { s1 with conn :=
        { s.conn with win := s.conn.win.set i { len := pl.length, data := (s.conn.slot i).data.writeBytes 0 pl } } } ∧
      exec (.data q a pl) s = .next
        (if d < s.cfg.w ∧ (s.conn.slot i).len = 0 ∧ pl ≠ [] then { s2 with phase := .recvRedrain q }
        else { s1 with phase := .recvReply, txbuf := s.txbuf.writeBytes 0 f, txfill := f.length }) ∧
      u = (if d < s.cfg.w ∧ (s.conn.slot i).len = 0 ∧ pl ≠ [] then drain s2 else s1) ∧
      t = { u with txbuf := s.txbuf.writeBytes 0 f, txfill := f.length, chan := (s.logWrite f).chan } ∧
      (s.writeAnswer = .ok → handleFrame (.data q a pl) s = .next
        (if t.work.outcnt = t.work.cap then
          { t with op := .idle, phase := .none, result := BitVec.ofNat 32 t.work.outcnt }
        else t)) ∧
      (s.writeAnswer = .err → handleFrame (.data q a pl) s = .next { t with op := .idle, phase := .none, result := -2 })

/-- R132, R133, R69 (c): in RECV's decode pass an ACK frame changes nothing but `TICKS`; a FIN frame is answered with
FIN(`SEQ`, `ACK`), `CLOSED` is set and the command returns the count so far; on `Err` it ends with `ERR_TX` and `CLOSED` is not
set. -/
def Obligations.AckAndFinFramesInRecv : Prop :=
  ∀ (s : State) (q a : Seq) (pl : List Byte), s.op = .recv → s.phase = .recvPass →
    exec (.ack q a pl) s = .next { s with work := { s.work with ticks := 0 } } ∧
    ∃ (f : List Byte) (u t : State),
      f = encodeFrame (BitVec.ofNat 8 (4 * s.cfg.tag.toNat + 2)) s.conn.seq s.conn.ack [] ∧
      u = { s with
        phase := .recvEcho
        work := { s.work with ticks := 0 }
        txbuf := s.txbuf.writeBytes 0 f
        txfill := f.length } ∧
      t = { u with op := .idle, phase := .none, chan := (s.logWrite f).chan } ∧
      exec (.fin q a pl) s = .next u ∧
      (s.writeAnswer = .ok → step u = .next
        { t with conn := { s.conn with closed := true }, result := BitVec.ofNat 32 s.work.outcnt }) ∧
      (s.writeAnswer = .err → step u = .next { t with result := -2 })

/-- R134 ("idempotence of duplicate data"): a second data frame of the same `seq`, whatever its payload, changes nothing of the
window, of `ACK` or of `OUT`, and is acknowledged again. -/
def Obligations.DuplicateDataIsDeliveredOnce : Prop :=
  ∀ (s t u : State) (q a a' : Seq) (pl pl' : List Byte), Window s → s.op = .recv → s.phase = .recvPass →
    s.work.outcnt < s.work.cap → pl ≠ [] → pl.length ≤ s.cfg.maxp → pl'.length ≤ s.cfg.maxp →
    handleFrame (.data q a pl) s = .next t → t.op = .recv → handleFrame (.data q a' pl') t = .next u →
    u.conn = t.conn ∧ u.out = t.out ∧ u.work = t.work ∧
      u.chan = (t.logWrite (encodeFrame (flagAck t.cfg) t.conn.seq q [])).chan

/-- R134 (corner cases): a data frame one past the window is never buffered, and one at its last place is accepted when its
slot is empty, here with the head slot empty so that nothing drains. -/
def Obligations.WindowBoundary : Prop :=
  ∀ (s : State) (a : Seq) (pl : List Byte), Window s → s.op = .recv → s.phase = .recvPass → s.writeAnswer = .ok →
    s.work.outcnt < s.work.cap → pl ≠ [] → pl.length ≤ s.cfg.maxp →
    (∃ t, handleFrame (.data (s.conn.ack + BitVec.ofNat 16 s.cfg.w) a pl) s = .next t ∧ t.conn = s.conn ∧ t.out = s.out ∧
      t.work = { s.work with ticks := 0 } ∧ t.op = .recv) ∧
    (1 < s.cfg.w → (s.conn.slot s.conn.wnd).len = 0 →
      (s.conn.slot ((s.conn.wnd + (s.cfg.w - 1)) % s.cfg.w)).len = 0 →
      ∃ t, handleFrame (.data (s.conn.ack + BitVec.ofNat 16 (s.cfg.w - 1)) a pl) s = .next t ∧
        (t.conn.slot ((s.conn.wnd + (s.cfg.w - 1)) % s.cfg.w)).bytes = pl ∧ t.conn.ack = s.conn.ack ∧
        t.conn.wnd = s.conn.wnd ∧ t.out = s.out ∧ t.op = .recv)

/-- R137 (and the reordering half of the source's delivery property, R58): the data frames of up to `W` packets, arriving in ANY
order, are delivered to `OUT` in the order of their sequence numbers, each exactly once, and the window is empty again. -/
def Obligations.AnyOrderOfArrivalIsDeliveredInOrder : Prop :=
  ∀ (s : State) (payloads : List (List Byte)) (order : List Nat) (ws : List WriteAnswer),
    Window s → s.op = .recv → s.phase = .recvPass → (∀ v ∈ s.conn.win, v.len = 0) →
    payloads.length ≤ s.cfg.w → (∀ pl ∈ payloads, pl ≠ [] ∧ pl.length ≤ s.cfg.maxp) →
    order.Perm (List.range payloads.length) →
    s.work.outcnt + payloads.flatten.length < s.work.cap →
    s.chan.writes = List.replicate payloads.length .ok ++ ws →
    ∃ t : State, feedData s.conn.ack payloads order s = .next t ∧
      t.out.readBytes s.work.outcnt payloads.flatten.length = payloads.flatten ∧
      t.work.outcnt = s.work.outcnt + payloads.flatten.length ∧
      t.conn.ack = s.conn.ack + BitVec.ofNat 16 payloads.length ∧ (∀ v ∈ t.conn.win, v.len = 0) ∧
      t.op = .recv ∧ t.phase = .recvPass ∧ t.chan.writes = ws

/-- R175 (RECV): against a silent channel RECV on an open connection whose first drain does not fill the output makes
max(1, `MAX_TIMEOUT`) reads and returns what that drain gave. -/
def Obligations.RecvAgainstASilentChannel : Prop :=
  ∀ (s s1 : State) (n : Word) (rs : List ReadAnswer),
    s.op = .idle → s.inited = true → s.conn.closed = false → n.toNat < 2 ^ 31 →
    s.chan.reads = silent s.patience rs →
    exec (.recv n) s = .next s1 → (drain s1).work.outcnt < n.toNat →
    ∃ (k : Nat) (t : State), run k s1 = .next t ∧ t.op = .idle ∧
      t.result = BitVec.ofNat 32 (drain s1).work.outcnt ∧ t.conn = (drain s1).conn ∧ t.out = (drain s1).out ∧
      t.chan.reads = rs ∧ t.readsMade = s.readsMade + s.patience ∧ t.writesMade = s.writesMade

/-! ### The teardown engine -/

/-- R140: one turn of CLOSE's attempt loop: with attempts left, `ATTEMPT` + 1 and the frame FIN(`SEQ`, `ACK`), then the wait with
`TICKS` = 0; with none left, 0 is returned and `CLOSED` stays as it is (R142). -/
def Obligations.CloseSendsItsFin : Prop :=
  ∀ s : State, s.op = .close → s.phase = .closeAttempt →
    (s.work.attempt.toNat < s.args.arg0.toNat → ∃ (f : List Byte) (u t : State),
      f = encodeFrame (BitVec.ofNat 8 (4 * s.cfg.tag.toNat + 2)) s.conn.seq s.conn.ack [] ∧
      u = { s with
        phase := .closeWrite
        txbuf := s.txbuf.writeBytes 0 f
        txfill := f.length
        work := { s.work with attempt := s.work.attempt + 1 } } ∧
      t = { u with chan := (s.logWrite f).chan } ∧
      step s = .next u ∧
      (s.writeAnswer = .ok → step u = .next { t with phase := .closeWait, work := { u.work with ticks := 0 } }) ∧
      (s.writeAnswer = .err → step u = .next { t with op := .idle, phase := .none, result := -2 })) ∧
    (s.args.arg0.toNat ≤ s.work.attempt.toNat →
      run 2 s = .next { s with op := .idle, phase := .none, result := 0 })

/-- R141: in CLOSE's decode pass a FIN frame sets `CLOSED` and ends the command with 0, with no echo; an ACK or data frame clears
`TICKS` and does nothing else. -/
def Obligations.FramesInClose : Prop :=
  ∀ (s : State) (q a : Seq) (pl : List Byte), s.op = .close → s.phase = .closePass →
    exec (.data q a pl) s = .next { s with work := { s.work with ticks := 0 } } ∧
    exec (.ack q a pl) s = .next { s with work := { s.work with ticks := 0 } } ∧
    exec (.fin q a pl) s = .next
      { s with
        op := .idle
        phase := .none
        result := 0
        work := { s.work with ticks := 0 }
        conn := { s.conn with closed := true } }

/-- R140, R141 (and S5): CLOSE of an open connection with at least one attempt completes in its first attempt when its FIN is
written and the first read answers with a FIN frame: 0 is returned, `CLOSED` is set, one write and one read were made. -/
def Obligations.CloseHandshakeCompletes : Prop :=
  ∀ (s s1 : State) (n : Word) (q a : Seq) (rs : List ReadAnswer) (ws : List WriteAnswer),
    s.cfg.Legal → s.op = .idle → s.inited = true → s.conn.closed = false → 0 < n.toNat →
    s.chan.reads = .bytes (encodeFrame (flagFin s.cfg) q a []) :: rs → s.chan.writes = .ok :: ws →
    exec (.close n) s = .next s1 →
    ∃ (k : Nat) (t : State), run k s1 = .next t ∧ t.op = .idle ∧ t.result = 0 ∧
      t.conn = { s.conn with closed := true } ∧ t.chan.reads = rs ∧ t.chan.writes = ws ∧
      t.chan.trace =
        .read s.conn.ctx s.cfg.rxcap (.bytes (encodeFrame (flagFin s.cfg) q a [])) ::
          .write s.conn.ctx (encodeFrame (flagFin s.cfg) s.conn.seq s.conn.ack []) .ok :: s.chan.trace

/-- R142, R175 (CLOSE): against a silent channel CLOSE makes `max_attempts` writes of its FIN and `max_attempts` *
max(1, `MAX_TIMEOUT`) reads, and returns 0 with `CLOSED` = 0. -/
def Obligations.CloseAgainstASilentChannel : Prop :=
  ∀ (s s1 : State) (n : Word) (rs : List ReadAnswer) (ws : List WriteAnswer),
    s.op = .idle → s.inited = true → s.conn.closed = false →
    s.chan.reads = silent (n.toNat * s.patience) rs →
    s.chan.writes = List.replicate n.toNat .ok ++ ws →
    exec (.close n) s = .next s1 →
    ∃ (k : Nat) (t : State), run k s1 = .next t ∧ t.op = .idle ∧ t.result = 0 ∧ t.conn = s.conn ∧
      t.chan.reads = rs ∧ t.chan.writes = ws ∧ t.readsMade = s.readsMade + n.toNat * s.patience ∧
      t.writesMade = s.writesMade + n.toNat

/-- R143, R144: in WAIT's decode pass every frame, whatever its class, is answered with FIN(`SEQ`, `ACK`), and the decode pass goes
on; no Connection State register changes and nothing is stored; on `Err` the command ends with `ERR_TX`. -/
def Obligations.FramesInWait : Prop :=
  ∀ (s : State) (i : Instr), i.isFrame = true → s.op = .wait → s.phase = .waitPass →
    ∃ (f : List Byte) (u t : State),
      f = encodeFrame (BitVec.ofNat 8 (4 * s.cfg.tag.toNat + 2)) s.conn.seq s.conn.ack [] ∧
      u = { s with phase := .waitReply, txbuf := s.txbuf.writeBytes 0 f, txfill := f.length } ∧
      t = { u with chan := (s.logWrite f).chan } ∧
      exec i s = .next u ∧
      (s.writeAnswer = .ok → step u = .next { t with phase := .waitPass }) ∧
      (s.writeAnswer = .err → step u = .next { t with op := .idle, phase := .none, result := -2 })

/-- R143, R174: WAIT always ends. From the head of its read loop, whatever the channel answers within its contract, it ends with
`ERR_RX`, with `ERR_TX`, or with 0 after exactly `BUDGET_LEFT` more reads; and no Connection State register has changed
(R144). (A scripted answer longer than asked for breaks the contract, R47, and stops the model.) -/
def Obligations.WaitAlwaysEnds : Prop :=
  ∀ s : State, s.op = .wait → s.phase = .waitRead →
    ∃ k : Nat, run k s = .refused .readAnswerTooLong ∨
      ∃ t : State, run k s = .next t ∧ t.op = .idle ∧ t.conn = s.conn ∧
        (t.result = -1 ∨ t.result = -2 ∨
          (t.result = 0 ∧ t.readsMade = s.readsMade + s.work.budgetLeft.toNat))

/-! ### Frames of class 11, and frames nobody is waiting for -/

/-- R12, R66: a frame with both flag bits set is handled exactly as the class the parameter names, and never stops the
machine. (At a core in no decode pass, that it answers a next state rests on log entry 6.) -/
def Obligations.Flag11IsItsClass : Prop :=
  ∀ (s : State) (q a : Seq) (pl : List Byte),
    (s.cfg.flag11 = .ack → exec (.flag11 q a pl) s = exec (.ack q a pl) s) ∧
    (s.cfg.flag11 = .fin → exec (.flag11 q a pl) s = exec (.fin q a pl) s) ∧
    ∃ t, exec (.flag11 q a pl) s = .next t

/-! ### What every step keeps -/

/-- R31 (a), R26, R33: the window keeps its shape, from every state that has it. -/
def Obligations.StepKeepsTheWindow : Prop := ∀ s t : State, Window s → step s = .next t → Window t

/-- R21, R22, R23: `PHASE` stays in the rule of `OP`, and a busy core is initialised. -/
def Obligations.StepKeepsTheSequencer : Prop := ∀ s t : State, Control s → step s = .next t → Control t

/-- Every byte space keeps its canonical form, so that equal spaces are equal data. -/
def Obligations.StepKeepsSpacesCanonical : Prop := ∀ s t : State, Canonical s → step s = .next t → Canonical t

/-- R101, R102: `RXBUF` never overflows, and between decode passes it is empty or the incomplete front of one frame; so at every
read the core asks for at least one byte. And at every write `TXBUF` holds 9 .. `MAXFRAME` bytes (R48's bound). -/
def Obligations.StepKeepsRxbufOpen : Prop :=
  (∀ s t : State, Buffered s → step s = .next t → Buffered t) ∧
  (∀ s : State, Buffered s → s.phase.reads = true → 1 ≤ s.room) ∧
  (∀ s : State, Buffered s → s.phase.writes = true → 9 ≤ s.txBytes.length ∧ s.txBytes.length ≤ s.cfg.maxp + 9)

/-- R123: the invariants of SEND hold at the head of every round, and what makes them hold is kept by every step. -/
def Obligations.StepKeepsTheSendWindow : Prop := ∀ s t : State, SendWindow s → step s = .next t → SendWindow t

/-- R37, R135: `OUTCNT` never passes `CAP`, in any state, the one in which RECV ends among them; and it stays below `CAP` wherever
RECV may still receive. (That an idle core keeps `OUTCNT` and `CAP` is log entry 24.) -/
def Obligations.StepKeepsOutputInBounds : Prop := ∀ s t : State, OutBound s → step s = .next t → OutBound t

/-- From a state the sequencer's invariant holds in, a step never faults, and it is refused only for what the host or the channel
put in: a command before INIT, a count of 2^31 or more, or an answer longer than asked for (93_implementation_defined.md
section 3). -/
def Obligations.StepStopsOnInputsOnly : Prop :=
  ∀ s : State, Control s →
    (∃ t, step s = .next t) ∨ (s.op = .idle ∧ s.host ≠ [] ∧ step s = .refused .notInited) ∨
      (s.op = .idle ∧ s.host ≠ [] ∧ step s = .refused .countTooLarge) ∨
      (s.op ≠ .idle ∧ s.chan.reads ≠ [] ∧ step s = .refused .readAnswerTooLong)

/-- R23, R24, R27, R28, R29, R30: who writes these registers. `MAX_RETRANS`, `MAX_TIMEOUT` and `CTX` change only by INIT; `INITED`
is set only by INIT and never cleared; `CLOSED` is cleared only by INIT and RESET, and set only by SETCLOSED, by the echo's write of SEND or
RECV, at which the core stands only after a frame of class FIN, or by a frame of class FIN in CLOSE; `SEQ` changes only by INIT, RESET and SEND's advance. The parameters never change. -/
def Obligations.OnlyTheNamedWriters : Prop :=
  ∀ s t : State, step s = .next t →
    t.cfg = s.cfg ∧ (s.inited = true → t.inited = true) ∧
    (s.inited = false → t.inited = true → s.op = .init ∨ ∃ r w x, s.nextCommand = some (.init r w x)) ∧
    ((t.conn.maxRetrans = s.conn.maxRetrans ∧ t.conn.maxTimeout = s.conn.maxTimeout ∧ t.conn.ctx = s.conn.ctx) ∨
      s.op = .init ∨ ∃ r w x, s.nextCommand = some (.init r w x)) ∧
    (s.conn.closed = true → t.conn.closed = false → StartsOver s) ∧
    (s.conn.closed = false → t.conn.closed = true →
      s.nextCommand = some .setclosed ∨ s.phase = .sendEcho ∨ s.phase = .recvEcho ∨
        (s.phase = .closePass ∧ FrontIs s .fin)) ∧
    (t.op ≠ .idle → t.phase = .sendEcho ∨ t.phase = .recvEcho →
      (s.phase = .sendPass ∨ s.phase = .recvPass) ∧ FrontIs s .fin) ∧
    (t.conn.seq ≠ s.conn.seq → StartsOver s ∨ s.phase = .sendAdvance)

/-- R25, R31 (d): but for INIT and RESET, `ACK` and `WND` change only together, by +1 each, and then the head slot's bytes have all
been consumed: its length is 0. -/
def Obligations.AckAndWndMoveTogether : Prop :=
  ∀ s t : State, Window s → step s = .next t →
    StartsOver s ∨ (t.conn.ack = s.conn.ack ∧ t.conn.wnd = s.conn.wnd) ∨
      (t.conn.ack = s.conn.ack + 1 ∧ t.conn.wnd = (s.conn.wnd + 1) % s.cfg.w ∧
        (s.conn.slot s.conn.wnd).len ≠ 0 ∧ (t.conn.slot s.conn.wnd).len = 0 ∧
        t.work.outcnt = s.work.outcnt + (s.conn.slot s.conn.wnd).len)

/-- R43, R22, R54: `RESULT` is written only by a step that ends a command: one that leaves the core idle, and that began busy or
with a command to take. -/
def Obligations.ResultIsWrittenAtTheEnd : Prop :=
  ∀ s t : State, step s = .next t → t.result ≠ s.result → t.op = .idle ∧ (s.op ≠ .idle ∨ s.host ≠ [])

/-- R49: a busy core never writes `TXDATA`, and writes `OUT` only at the offsets its `OUTCNT` moves over. -/
def Obligations.HostSpacesAreKept : Prop :=
  ∀ s t : State, s.op ≠ .idle → step s = .next t →
    t.txdata = s.txdata ∧ ∀ a, a < s.work.outcnt ∨ t.work.outcnt ≤ a → t.out.read a = s.out.read a

/-- R13, R18, R54: a step makes a channel transaction exactly where the core stands at one, and then it begins with it: what it
presents (`CTX` and `RXCAP - RXFILL`, or `CTX` and the frame in `TXBUF`) is of the state it begins in. Everywhere else, and on an
idle core, a step makes none. -/
def Obligations.AtMostOneTransactionPerStep : Prop :=
  ∀ s t : State, step s = .next t →
    (s.op ≠ .idle → s.phase.reads = true → t.chan = (s.logRead s.room).chan) ∧
    (s.op ≠ .idle → s.phase.writes = true → t.chan = (s.logWrite s.txBytes).chan) ∧
    (s.op = .idle ∨ (s.phase.reads = false ∧ s.phase.writes = false) → t.chan = s.chan)

/-- R13: the step of rule R13 is a run of the model's finer steps (log entry 3). From a state inside the invariants, a busy core
reaches its next channel transaction or the end of its command within as many of the model's steps as `RXBUF` has bytes, the window
slots, and 64, and makes no transaction on the way. So from a transaction, R13's step is that transaction with the computation that
follows it up to the next transaction or the completion of the command, unless the channel breaks its contract (R47). -/
def Obligations.BoundedWorkBetweenTransactions : Prop :=
  (∀ s : State, Control s → SendWindow s → s.op ≠ .idle →
    ∃ t, settle s.workBound s = .next t ∧ t.chan = s.chan ∧
      (t.op = .idle ∨ t.phase.reads = true ∨ t.phase.writes = true)) ∧
  (∀ s : State, Control s → SendWindow s → s.op ≠ .idle → s.phase.reads = true ∨ s.phase.writes = true →
    transactionStep s = .refused .readAnswerTooLong ∨
      ∃ (t : State) (x : Transaction) (k : Nat), transactionStep s = .next t ∧ run k s = .next t ∧
        t.chan.trace = x :: s.chan.trace ∧ (t.op = .idle ∨ t.phase.reads = true ∨ t.phase.writes = true))
end

