-- ==== Sys2Proof/Laws/Memory.lean ====
section
/-! SUPPORT. The laws of a byte space: a read after a write, and the canonical form every write keeps. -/

namespace Sys2Proof.Memory

/-! ### A read after a write -/

theorem read_erase_same (m : Memory) (i : Nat) : read (erase m i) i = blank := by
  induction m with
  | nil => rfl
  | cons c m ih =>
    by_cases h : c.1 = i
    · simpa [erase, List.filter_cons, h] using ih
    · simpa [erase, List.filter_cons, read, h] using ih

theorem read_erase_ne (m : Memory) {i j : Nat} (h : i ≠ j) : read (erase m i) j = read m j := by
  induction m with
  | nil => rfl
  | cons c m ih =>
    by_cases hc : c.1 = i
    · have hj : c.1 ≠ j := fun e => h (hc.symm.trans e)
      simpa [erase, List.filter_cons, hc, read, hj, h] using ih
    · by_cases hj : c.1 = j
      · have hji : ¬j = i := fun e => h e.symm
        simp [erase, read, hj, hji]
      · simpa [erase, List.filter_cons, hc, read, hj] using ih

theorem read_insert_ne (m : Memory) {i j : Nat} (b : Byte) (h : i ≠ j) : read (insert m i b) j = read m j := by
  induction m with
  | nil => simp [insert, read, h]
  | cons c m ih =>
    by_cases hlt : i < c.1
    · simp [insert, hlt, read, h]
    · simp [insert, hlt, read, ih]

theorem read_insert_erase_same (m : Memory) (i : Nat) (b : Byte) : read (insert (erase m i) i b) i = b := by
  induction m with
  | nil => simp [erase, insert, read]
  | cons c m ih =>
    by_cases hc : c.1 = i
    · simpa [erase, List.filter_cons, hc] using ih
    · by_cases hlt : i < c.1
      · simp [erase, hc, insert, hlt, read]
      · simpa [erase, List.filter_cons, hc, insert, hlt, read] using ih

@[simp] theorem read_write_same (m : Memory) (i : Nat) (b : Byte) : read (write m i b) i = b := by
  by_cases hb : b = blank
  · simp [write, hb, read_erase_same]
  · simp [write, hb, read_insert_erase_same]

theorem read_write_ne (m : Memory) {i j : Nat} (b : Byte) (h : i ≠ j) : read (write m i b) j = read m j := by
  by_cases hb : b = blank
  · simp [write, hb, read_erase_ne m h]
  · simp [write, hb, read_insert_ne _ b h, read_erase_ne m h]

theorem read_write (m : Memory) (i j : Nat) (b : Byte) :
    read (write m i b) j = if i = j then b else read m j := by
  by_cases h : i = j
  · simp [← h]
  · simp [h, read_write_ne m b h]

/-! ### Ranges -/

@[simp] theorem length_readBytes (m : Memory) (a n : Nat) : (readBytes m a n).length = n := by
  induction n generalizing a with
  | zero => rfl
  | succ n ih => simp [readBytes, ih]

theorem getElem_readBytes (m : Memory) (a n i : Nat) (h : i < (readBytes m a n).length) :
    (readBytes m a n)[i] = read m (a + i) := by
  induction n generalizing a i with
  | zero => simp [readBytes] at h
  | succ n ih =>
    cases i with
    | zero => simp [readBytes]
    | succ i =>
      simp only [readBytes, List.getElem_cons_succ]
      rw [ih]
      congr 1
      omega

theorem readBytes_congr {m m' : Memory} {a n : Nat} (h : ∀ i < n, read m (a + i) = read m' (a + i)) :
    readBytes m a n = readBytes m' a n := by
  apply List.ext_getElem
  · simp
  · intro i h1 h2
    rw [getElem_readBytes, getElem_readBytes]
    exact h i (by simpa using h1)

theorem readBytes_add (m : Memory) (a p q : Nat) :
    readBytes m a (p + q) = readBytes m a p ++ readBytes m (a + p) q := by
  induction p generalizing a with
  | zero => simp [readBytes]
  | succ p ih =>
    rw [Nat.add_right_comm]
    simp only [readBytes, List.cons_append, ih]
    congr 3
    omega

/-- What one offset reads as after a range was written. -/
theorem read_writeBytes (m : Memory) (a : Nat) (bs : List Byte) (j : Nat) :
    read (writeBytes m a bs) j = if a ≤ j ∧ j < a + bs.length then bs.getD (j - a) blank else read m j := by
  induction bs generalizing m a with
  | nil => simp [writeBytes]
  | cons b bs ih =>
    rw [writeBytes, ih]
    by_cases h1 : a + 1 ≤ j ∧ j < a + 1 + bs.length
    · have h2 : a ≤ j ∧ j < a + (b :: bs).length := by simp only [List.length_cons]; omega
      rw [if_pos h1, if_pos h2]
      obtain ⟨k, rfl⟩ : ∃ k, j = a + (k + 1) := ⟨j - a - 1, by omega⟩
      have e1 : a + (k + 1) - (a + 1) = k := by omega
      have e2 : a + (k + 1) - a = k + 1 := by omega
      rw [e1, e2]
      simp
    · rw [if_neg h1, read_write]
      by_cases hj : a = j
      · have h2 : a ≤ j ∧ j < a + (b :: bs).length := by simp only [List.length_cons]; omega
        rw [if_pos hj, if_pos h2, ← hj]
        simp
      · have h2 : ¬(a ≤ j ∧ j < a + (b :: bs).length) := by simp only [List.length_cons]; omega
        rw [if_neg hj, if_neg h2]

/-- A write leaves every offset outside its range alone. -/
theorem read_writeBytes_outside {m : Memory} {a : Nat} {bs : List Byte} {j : Nat}
    (h : j < a ∨ a + bs.length ≤ j) : read (writeBytes m a bs) j = read m j := by
  rw [read_writeBytes, if_neg (by omega)]

/-- Reading back exactly the range that was written. -/
@[simp] theorem readBytes_writeBytes_same (m : Memory) (a : Nat) (bs : List Byte) :
    readBytes (writeBytes m a bs) a bs.length = bs := by
  apply List.ext_getElem
  · simp
  · intro i h1 h2
    rw [getElem_readBytes, read_writeBytes, if_pos (by omega), Nat.add_sub_cancel_left]
    simp [List.getD_eq_getElem?_getD, h2]

/-- A range that the written one does not meet. -/
theorem readBytes_writeBytes_disjoint {m : Memory} {a b n : Nat} {bs : List Byte}
    (h : b + n ≤ a ∨ a + bs.length ≤ b) : readBytes (writeBytes m a bs) b n = readBytes m b n :=
  readBytes_congr fun i hi => read_writeBytes_outside (by omega)

/-! ### The canonical form -/

theorem wfFrom_cons {lo a : Nat} {b : Byte} {m : Memory} :
    wfFrom lo ((a, b) :: m) = true ↔ lo ≤ a ∧ b ≠ blank ∧ wfFrom (a + 1) m = true := by
  simp [wfFrom, and_assoc]

theorem wfFrom_mono {m : Memory} {lo lo' : Nat} (hle : lo ≤ lo') (h : wfFrom lo' m = true) : wfFrom lo m = true := by
  cases m with
  | nil => rfl
  | cons c m =>
    obtain ⟨a, b⟩ := c
    rw [wfFrom_cons] at h ⊢
    exact ⟨by omega, h.2⟩

theorem wfFrom_erase {m : Memory} {lo : Nat} (i : Nat) (h : wfFrom lo m = true) : wfFrom lo (erase m i) = true := by
  induction m generalizing lo with
  | nil => rfl
  | cons c m ih =>
    obtain ⟨a, b⟩ := c
    rw [wfFrom_cons] at h
    by_cases hc : a = i
    · simpa [erase, List.filter_cons, hc] using wfFrom_mono (by omega) (ih h.2.2)
    · have : erase ((a, b) :: m) i = (a, b) :: erase m i := by simp [erase, hc]
      rw [this, wfFrom_cons]
      exact ⟨h.1, h.2.1, ih h.2.2⟩

theorem mem_erase_ne {m : Memory} {i : Nat} {c : Host.Cell} (h : c ∈ erase m i) : c.1 ≠ i := by
  simpa [erase] using (List.mem_filter.mp h).2

theorem wfFrom_insert {m : Memory} {lo i : Nat} {b : Byte} (hb : b ≠ blank) (hlo : lo ≤ i)
    (hne : ∀ c ∈ m, c.1 ≠ i) (h : wfFrom lo m = true) : wfFrom lo (insert m i b) = true := by
  induction m generalizing lo with
  | nil => simp [insert, wfFrom, hb, hlo]
  | cons c m ih =>
    obtain ⟨a, v⟩ := c
    rw [wfFrom_cons] at h
    have hai : a ≠ i := hne (a, v) (by simp)
    by_cases hlt : i < a
    · simp only [insert, hlt, if_true, wfFrom_cons]
      exact ⟨hlo, hb, by omega, h.2⟩
    · simp only [insert, hlt, if_false, wfFrom_cons]
      exact ⟨h.1, h.2.1, ih (by omega) (fun c hc => hne c (by simp [hc])) h.2.2⟩

/-- Writing one byte keeps the canonical form. -/
theorem write_wf {m : Memory} (i : Nat) (b : Byte) (h : m.wf = true) : (write m i b).wf = true := by
  by_cases hb : b = blank
  · simpa [write, hb, wf] using wfFrom_erase i h
  · simpa [write, hb, wf] using wfFrom_insert hb (Nat.zero_le i) (fun _ => mem_erase_ne) (wfFrom_erase i h)

/-- Writing a range keeps the canonical form. -/
theorem writeBytes_wf {m : Memory} (a : Nat) (bs : List Byte) (h : m.wf = true) : (writeBytes m a bs).wf = true := by
  induction bs generalizing m a with
  | nil => exact h
  | cons b bs ih => exact ih (a + 1) (write_wf a b h)

theorem read_of_lt {m : Memory} {lo i : Nat} (h : wfFrom lo m = true) (hi : i < lo) : read m i = blank := by
  induction m generalizing lo with
  | nil => rfl
  | cons c m ih =>
    obtain ⟨a, b⟩ := c
    rw [wfFrom_cons] at h
    have hne : a ≠ i := by omega
    simpa [read, hne] using ih h.2.2 (by omega)

theorem ext_from {m m' : Memory} {lo : Nat} (h : wfFrom lo m = true) (h' : wfFrom lo m' = true)
    (heq : ∀ i, read m i = read m' i) : m = m' := by
  induction m generalizing m' lo with
  | nil =>
    cases m' with
    | nil => rfl
    | cons c m' =>
      obtain ⟨a, b⟩ := c
      rw [wfFrom_cons] at h'
      exact absurd (by simpa [read] using (heq a).symm) h'.2.1
  | cons c m ih =>
    obtain ⟨a, b⟩ := c
    rw [wfFrom_cons] at h
    cases m' with
    | nil => exact absurd (by simpa [read] using heq a) h.2.1
    | cons c' m' =>
      obtain ⟨a', b'⟩ := c'
      rw [wfFrom_cons] at h'
      have haa : a = a' := by
        rcases Nat.lt_trichotomy a a' with hlt | he | hgt
        · have := heq a
          simp only [read, if_true] at this
          rw [if_neg (by omega), read_of_lt h'.2.2 (by omega)] at this
          exact absurd this h.2.1
        · exact he
        · have := heq a'
          simp only [read, if_true] at this
          rw [if_neg (by omega), read_of_lt h.2.2 (by omega)] at this
          exact absurd this.symm h'.2.1
      subst haa
      have hb : b = b' := by simpa [read] using heq a
      subst hb
      congr 1
      refine ih h.2.2 h'.2.2 fun i => ?_
      by_cases hi : a = i
      · rw [read_of_lt h.2.2 (by omega), read_of_lt h'.2.2 (by omega)]
      · simpa [read, hi] using heq i

/-- Two spaces in canonical form that read the same everywhere are equal data. -/
theorem ext_of_read {m m' : Memory} (h : m.wf = true) (h' : m'.wf = true) (heq : ∀ i, read m i = read m' i) : m = m' :=
  ext_from h h' heq

end Sys2Proof.Memory
end

