-- ==== Sys2Proof/Laws/State.lean ====
section
/-! SUPPORT. One lemma per field per named update of the state, so that no later proof unfolds a record update. -/

namespace Sys2Proof.Machine.State

/-! ### endWith -/

@[simp] theorem endWith_cfg (v : Word) (s : State) : (s.endWith v).cfg = s.cfg := rfl
@[simp] theorem endWith_op (v : Word) (s : State) : (s.endWith v).op = .idle := rfl
@[simp] theorem endWith_phase (v : Word) (s : State) : (s.endWith v).phase = .none := rfl
@[simp] theorem endWith_inited (v : Word) (s : State) : (s.endWith v).inited = s.inited := rfl
@[simp] theorem endWith_conn (v : Word) (s : State) : (s.endWith v).conn = s.conn := rfl
@[simp] theorem endWith_work (v : Word) (s : State) : (s.endWith v).work = s.work := rfl
@[simp] theorem endWith_rx (v : Word) (s : State) : (s.endWith v).rx = s.rx := rfl
@[simp] theorem endWith_txbuf (v : Word) (s : State) : (s.endWith v).txbuf = s.txbuf := rfl
@[simp] theorem endWith_txfill (v : Word) (s : State) : (s.endWith v).txfill = s.txfill := rfl
@[simp] theorem endWith_txdata (v : Word) (s : State) : (s.endWith v).txdata = s.txdata := rfl
@[simp] theorem endWith_out (v : Word) (s : State) : (s.endWith v).out = s.out := rfl
@[simp] theorem endWith_args (v : Word) (s : State) : (s.endWith v).args = s.args := rfl
@[simp] theorem endWith_result (v : Word) (s : State) : (s.endWith v).result = v := rfl
@[simp] theorem endWith_host (v : Word) (s : State) : (s.endWith v).host = s.host := rfl
@[simp] theorem endWith_chan (v : Word) (s : State) : (s.endWith v).chan = s.chan := rfl

/-! ### finish -/

@[simp] theorem finish_cfg (n : Nat) (s : State) : (s.finish n).cfg = s.cfg := rfl
@[simp] theorem finish_op (n : Nat) (s : State) : (s.finish n).op = .idle := rfl
@[simp] theorem finish_phase (n : Nat) (s : State) : (s.finish n).phase = .none := rfl
@[simp] theorem finish_inited (n : Nat) (s : State) : (s.finish n).inited = s.inited := rfl
@[simp] theorem finish_conn (n : Nat) (s : State) : (s.finish n).conn = s.conn := rfl
@[simp] theorem finish_work (n : Nat) (s : State) : (s.finish n).work = s.work := rfl
@[simp] theorem finish_rx (n : Nat) (s : State) : (s.finish n).rx = s.rx := rfl
@[simp] theorem finish_txbuf (n : Nat) (s : State) : (s.finish n).txbuf = s.txbuf := rfl
@[simp] theorem finish_txfill (n : Nat) (s : State) : (s.finish n).txfill = s.txfill := rfl
@[simp] theorem finish_txdata (n : Nat) (s : State) : (s.finish n).txdata = s.txdata := rfl
@[simp] theorem finish_out (n : Nat) (s : State) : (s.finish n).out = s.out := rfl
@[simp] theorem finish_args (n : Nat) (s : State) : (s.finish n).args = s.args := rfl
@[simp] theorem finish_result (n : Nat) (s : State) : (s.finish n).result = BitVec.ofNat 32 n := rfl
@[simp] theorem finish_host (n : Nat) (s : State) : (s.finish n).host = s.host := rfl
@[simp] theorem finish_chan (n : Nat) (s : State) : (s.finish n).chan = s.chan := rfl

/-! ### raise -/

@[simp] theorem raise_cfg (e : ErrCode) (s : State) : (s.raise e).cfg = s.cfg := rfl
@[simp] theorem raise_op (e : ErrCode) (s : State) : (s.raise e).op = .idle := rfl
@[simp] theorem raise_phase (e : ErrCode) (s : State) : (s.raise e).phase = .none := rfl
@[simp] theorem raise_inited (e : ErrCode) (s : State) : (s.raise e).inited = s.inited := rfl
@[simp] theorem raise_conn (e : ErrCode) (s : State) : (s.raise e).conn = s.conn := rfl
@[simp] theorem raise_work (e : ErrCode) (s : State) : (s.raise e).work = s.work := rfl
@[simp] theorem raise_rx (e : ErrCode) (s : State) : (s.raise e).rx = s.rx := rfl
@[simp] theorem raise_txbuf (e : ErrCode) (s : State) : (s.raise e).txbuf = s.txbuf := rfl
@[simp] theorem raise_txfill (e : ErrCode) (s : State) : (s.raise e).txfill = s.txfill := rfl
@[simp] theorem raise_txdata (e : ErrCode) (s : State) : (s.raise e).txdata = s.txdata := rfl
@[simp] theorem raise_out (e : ErrCode) (s : State) : (s.raise e).out = s.out := rfl
@[simp] theorem raise_args (e : ErrCode) (s : State) : (s.raise e).args = s.args := rfl
@[simp] theorem raise_result (e : ErrCode) (s : State) : (s.raise e).result = e.value := rfl
@[simp] theorem raise_host (e : ErrCode) (s : State) : (s.raise e).host = s.host := rfl
@[simp] theorem raise_chan (e : ErrCode) (s : State) : (s.raise e).chan = s.chan := rfl

/-! ### goto -/

@[simp] theorem goto_cfg (p : Phase) (s : State) : (s.goto p).cfg = s.cfg := rfl
@[simp] theorem goto_op (p : Phase) (s : State) : (s.goto p).op = s.op := rfl
@[simp] theorem goto_phase (p : Phase) (s : State) : (s.goto p).phase = p := rfl
@[simp] theorem goto_inited (p : Phase) (s : State) : (s.goto p).inited = s.inited := rfl
@[simp] theorem goto_conn (p : Phase) (s : State) : (s.goto p).conn = s.conn := rfl
@[simp] theorem goto_work (p : Phase) (s : State) : (s.goto p).work = s.work := rfl
@[simp] theorem goto_rx (p : Phase) (s : State) : (s.goto p).rx = s.rx := rfl
@[simp] theorem goto_txbuf (p : Phase) (s : State) : (s.goto p).txbuf = s.txbuf := rfl
@[simp] theorem goto_txfill (p : Phase) (s : State) : (s.goto p).txfill = s.txfill := rfl
@[simp] theorem goto_txdata (p : Phase) (s : State) : (s.goto p).txdata = s.txdata := rfl
@[simp] theorem goto_out (p : Phase) (s : State) : (s.goto p).out = s.out := rfl
@[simp] theorem goto_args (p : Phase) (s : State) : (s.goto p).args = s.args := rfl
@[simp] theorem goto_result (p : Phase) (s : State) : (s.goto p).result = s.result := rfl
@[simp] theorem goto_host (p : Phase) (s : State) : (s.goto p).host = s.host := rfl
@[simp] theorem goto_chan (p : Phase) (s : State) : (s.goto p).chan = s.chan := rfl

/-! ### issue -/

@[simp] theorem issue_cfg (o : Op) (p : Phase) (s : State) : (s.issue o p).cfg = s.cfg := rfl
@[simp] theorem issue_op (o : Op) (p : Phase) (s : State) : (s.issue o p).op = o := rfl
@[simp] theorem issue_phase (o : Op) (p : Phase) (s : State) : (s.issue o p).phase = p := rfl
@[simp] theorem issue_inited (o : Op) (p : Phase) (s : State) : (s.issue o p).inited = s.inited := rfl
@[simp] theorem issue_conn (o : Op) (p : Phase) (s : State) : (s.issue o p).conn = s.conn := rfl
@[simp] theorem issue_work (o : Op) (p : Phase) (s : State) : (s.issue o p).work = s.work := rfl
@[simp] theorem issue_rx (o : Op) (p : Phase) (s : State) : (s.issue o p).rx = s.rx := rfl
@[simp] theorem issue_txbuf (o : Op) (p : Phase) (s : State) : (s.issue o p).txbuf = s.txbuf := rfl
@[simp] theorem issue_txfill (o : Op) (p : Phase) (s : State) : (s.issue o p).txfill = s.txfill := rfl
@[simp] theorem issue_txdata (o : Op) (p : Phase) (s : State) : (s.issue o p).txdata = s.txdata := rfl
@[simp] theorem issue_out (o : Op) (p : Phase) (s : State) : (s.issue o p).out = s.out := rfl
@[simp] theorem issue_args (o : Op) (p : Phase) (s : State) : (s.issue o p).args = s.args := rfl
@[simp] theorem issue_result (o : Op) (p : Phase) (s : State) : (s.issue o p).result = s.result := rfl
@[simp] theorem issue_host (o : Op) (p : Phase) (s : State) : (s.issue o p).host = s.host := rfl
@[simp] theorem issue_chan (o : Op) (p : Phase) (s : State) : (s.issue o p).chan = s.chan := rfl

/-! ### logRead -/

@[simp] theorem logRead_cfg (n : Nat) (s : State) : (s.logRead n).cfg = s.cfg := rfl
@[simp] theorem logRead_op (n : Nat) (s : State) : (s.logRead n).op = s.op := rfl
@[simp] theorem logRead_phase (n : Nat) (s : State) : (s.logRead n).phase = s.phase := rfl
@[simp] theorem logRead_inited (n : Nat) (s : State) : (s.logRead n).inited = s.inited := rfl
@[simp] theorem logRead_conn (n : Nat) (s : State) : (s.logRead n).conn = s.conn := rfl
@[simp] theorem logRead_work (n : Nat) (s : State) : (s.logRead n).work = s.work := rfl
@[simp] theorem logRead_rx (n : Nat) (s : State) : (s.logRead n).rx = s.rx := rfl
@[simp] theorem logRead_txbuf (n : Nat) (s : State) : (s.logRead n).txbuf = s.txbuf := rfl
@[simp] theorem logRead_txfill (n : Nat) (s : State) : (s.logRead n).txfill = s.txfill := rfl
@[simp] theorem logRead_txdata (n : Nat) (s : State) : (s.logRead n).txdata = s.txdata := rfl
@[simp] theorem logRead_out (n : Nat) (s : State) : (s.logRead n).out = s.out := rfl
@[simp] theorem logRead_args (n : Nat) (s : State) : (s.logRead n).args = s.args := rfl
@[simp] theorem logRead_result (n : Nat) (s : State) : (s.logRead n).result = s.result := rfl
@[simp] theorem logRead_host (n : Nat) (s : State) : (s.logRead n).host = s.host := rfl
@[simp] theorem logRead_chan (n : Nat) (s : State) :
    (s.logRead n).chan = { s.chan with reads := s.chan.reads.tail, drawn := if s.chan.reads.isEmpty then s.chan.drawn + 1 else s.chan.drawn, trace := .read s.conn.ctx n (s.readAnswer n) :: s.chan.trace } := rfl

/-! ### logWrite -/

@[simp] theorem logWrite_cfg (bs : List Byte) (s : State) : (s.logWrite bs).cfg = s.cfg := rfl
@[simp] theorem logWrite_op (bs : List Byte) (s : State) : (s.logWrite bs).op = s.op := rfl
@[simp] theorem logWrite_phase (bs : List Byte) (s : State) : (s.logWrite bs).phase = s.phase := rfl
@[simp] theorem logWrite_inited (bs : List Byte) (s : State) : (s.logWrite bs).inited = s.inited := rfl
@[simp] theorem logWrite_conn (bs : List Byte) (s : State) : (s.logWrite bs).conn = s.conn := rfl
@[simp] theorem logWrite_work (bs : List Byte) (s : State) : (s.logWrite bs).work = s.work := rfl
@[simp] theorem logWrite_rx (bs : List Byte) (s : State) : (s.logWrite bs).rx = s.rx := rfl
@[simp] theorem logWrite_txbuf (bs : List Byte) (s : State) : (s.logWrite bs).txbuf = s.txbuf := rfl
@[simp] theorem logWrite_txfill (bs : List Byte) (s : State) : (s.logWrite bs).txfill = s.txfill := rfl
@[simp] theorem logWrite_txdata (bs : List Byte) (s : State) : (s.logWrite bs).txdata = s.txdata := rfl
@[simp] theorem logWrite_out (bs : List Byte) (s : State) : (s.logWrite bs).out = s.out := rfl
@[simp] theorem logWrite_args (bs : List Byte) (s : State) : (s.logWrite bs).args = s.args := rfl
@[simp] theorem logWrite_result (bs : List Byte) (s : State) : (s.logWrite bs).result = s.result := rfl
@[simp] theorem logWrite_host (bs : List Byte) (s : State) : (s.logWrite bs).host = s.host := rfl
@[simp] theorem logWrite_chan (bs : List Byte) (s : State) :
    (s.logWrite bs).chan = { s.chan with writes := s.chan.writes.tail, drawn := if s.chan.writes.isEmpty then s.chan.drawn + 1 else s.chan.drawn, trace := .write s.conn.ctx bs s.writeAnswer :: s.chan.trace } := rfl

/-! ### fillTx -/

@[simp] theorem fillTx_cfg (bs : List Byte) (s : State) : (s.fillTx bs).cfg = s.cfg := rfl
@[simp] theorem fillTx_op (bs : List Byte) (s : State) : (s.fillTx bs).op = s.op := rfl
@[simp] theorem fillTx_phase (bs : List Byte) (s : State) : (s.fillTx bs).phase = s.phase := rfl
@[simp] theorem fillTx_inited (bs : List Byte) (s : State) : (s.fillTx bs).inited = s.inited := rfl
@[simp] theorem fillTx_conn (bs : List Byte) (s : State) : (s.fillTx bs).conn = s.conn := rfl
@[simp] theorem fillTx_work (bs : List Byte) (s : State) : (s.fillTx bs).work = s.work := rfl
@[simp] theorem fillTx_rx (bs : List Byte) (s : State) : (s.fillTx bs).rx = s.rx := rfl
@[simp] theorem fillTx_txbuf (bs : List Byte) (s : State) : (s.fillTx bs).txbuf = s.txbuf.writeBytes 0 bs := rfl
@[simp] theorem fillTx_txfill (bs : List Byte) (s : State) : (s.fillTx bs).txfill = bs.length := rfl
@[simp] theorem fillTx_txdata (bs : List Byte) (s : State) : (s.fillTx bs).txdata = s.txdata := rfl
@[simp] theorem fillTx_out (bs : List Byte) (s : State) : (s.fillTx bs).out = s.out := rfl
@[simp] theorem fillTx_args (bs : List Byte) (s : State) : (s.fillTx bs).args = s.args := rfl
@[simp] theorem fillTx_result (bs : List Byte) (s : State) : (s.fillTx bs).result = s.result := rfl
@[simp] theorem fillTx_host (bs : List Byte) (s : State) : (s.fillTx bs).host = s.host := rfl
@[simp] theorem fillTx_chan (bs : List Byte) (s : State) : (s.fillTx bs).chan = s.chan := rfl

/-! ### setTicks -/

@[simp] theorem setTicks_cfg (v : Word) (s : State) : (s.setTicks v).cfg = s.cfg := rfl
@[simp] theorem setTicks_op (v : Word) (s : State) : (s.setTicks v).op = s.op := rfl
@[simp] theorem setTicks_phase (v : Word) (s : State) : (s.setTicks v).phase = s.phase := rfl
@[simp] theorem setTicks_inited (v : Word) (s : State) : (s.setTicks v).inited = s.inited := rfl
@[simp] theorem setTicks_conn (v : Word) (s : State) : (s.setTicks v).conn = s.conn := rfl
@[simp] theorem setTicks_work (v : Word) (s : State) : (s.setTicks v).work = { s.work with ticks := v } := rfl
@[simp] theorem setTicks_rx (v : Word) (s : State) : (s.setTicks v).rx = s.rx := rfl
@[simp] theorem setTicks_txbuf (v : Word) (s : State) : (s.setTicks v).txbuf = s.txbuf := rfl
@[simp] theorem setTicks_txfill (v : Word) (s : State) : (s.setTicks v).txfill = s.txfill := rfl
@[simp] theorem setTicks_txdata (v : Word) (s : State) : (s.setTicks v).txdata = s.txdata := rfl
@[simp] theorem setTicks_out (v : Word) (s : State) : (s.setTicks v).out = s.out := rfl
@[simp] theorem setTicks_args (v : Word) (s : State) : (s.setTicks v).args = s.args := rfl
@[simp] theorem setTicks_result (v : Word) (s : State) : (s.setTicks v).result = s.result := rfl
@[simp] theorem setTicks_host (v : Word) (s : State) : (s.setTicks v).host = s.host := rfl
@[simp] theorem setTicks_chan (v : Word) (s : State) : (s.setTicks v).chan = s.chan := rfl

/-! ### setClosed -/

@[simp] theorem setClosed_cfg (s : State) : (s.setClosed).cfg = s.cfg := rfl
@[simp] theorem setClosed_op (s : State) : (s.setClosed).op = s.op := rfl
@[simp] theorem setClosed_phase (s : State) : (s.setClosed).phase = s.phase := rfl
@[simp] theorem setClosed_inited (s : State) : (s.setClosed).inited = s.inited := rfl
@[simp] theorem setClosed_conn (s : State) : (s.setClosed).conn = { s.conn with closed := true } := rfl
@[simp] theorem setClosed_work (s : State) : (s.setClosed).work = s.work := rfl
@[simp] theorem setClosed_rx (s : State) : (s.setClosed).rx = s.rx := rfl
@[simp] theorem setClosed_txbuf (s : State) : (s.setClosed).txbuf = s.txbuf := rfl
@[simp] theorem setClosed_txfill (s : State) : (s.setClosed).txfill = s.txfill := rfl
@[simp] theorem setClosed_txdata (s : State) : (s.setClosed).txdata = s.txdata := rfl
@[simp] theorem setClosed_out (s : State) : (s.setClosed).out = s.out := rfl
@[simp] theorem setClosed_args (s : State) : (s.setClosed).args = s.args := rfl
@[simp] theorem setClosed_result (s : State) : (s.setClosed).result = s.result := rfl
@[simp] theorem setClosed_host (s : State) : (s.setClosed).host = s.host := rfl
@[simp] theorem setClosed_chan (s : State) : (s.setClosed).chan = s.chan := rfl

/-! ### take -/

@[simp] theorem take_cfg (c : HostCmd) (rest : List HostCmd) (s : State) : (s.take c rest).cfg = s.cfg := rfl
@[simp] theorem take_op (c : HostCmd) (rest : List HostCmd) (s : State) : (s.take c rest).op = s.op := rfl
@[simp] theorem take_phase (c : HostCmd) (rest : List HostCmd) (s : State) : (s.take c rest).phase = s.phase := rfl
@[simp] theorem take_inited (c : HostCmd) (rest : List HostCmd) (s : State) : (s.take c rest).inited = s.inited := rfl
@[simp] theorem take_conn (c : HostCmd) (rest : List HostCmd) (s : State) : (s.take c rest).conn = s.conn := rfl
@[simp] theorem take_work (c : HostCmd) (rest : List HostCmd) (s : State) : (s.take c rest).work = s.work := rfl
@[simp] theorem take_rx (c : HostCmd) (rest : List HostCmd) (s : State) : (s.take c rest).rx = s.rx := rfl
@[simp] theorem take_txbuf (c : HostCmd) (rest : List HostCmd) (s : State) : (s.take c rest).txbuf = s.txbuf := rfl
@[simp] theorem take_txfill (c : HostCmd) (rest : List HostCmd) (s : State) : (s.take c rest).txfill = s.txfill := rfl
@[simp] theorem take_txdata (c : HostCmd) (rest : List HostCmd) (s : State) : (s.take c rest).txdata = c.txdata := rfl
@[simp] theorem take_out (c : HostCmd) (rest : List HostCmd) (s : State) : (s.take c rest).out = c.out := rfl
@[simp] theorem take_args (c : HostCmd) (rest : List HostCmd) (s : State) :
    (s.take c rest).args = { arg0 := c.launch.arg0, arg1 := c.launch.arg1, arg2 := truncCtx s.cfg c.launch.arg2 } := rfl
@[simp] theorem take_result (c : HostCmd) (rest : List HostCmd) (s : State) : (s.take c rest).result = s.result := rfl
@[simp] theorem take_host (c : HostCmd) (rest : List HostCmd) (s : State) : (s.take c rest).host = rest := rfl
@[simp] theorem take_chan (c : HostCmd) (rest : List HostCmd) (s : State) : (s.take c rest).chan = s.chan := rfl

/-! ### txFrame -/

@[simp] theorem txFrame_cfg (flag : Byte) (seq ack : Seq) (pl : List Byte) (p : Phase) (s : State) :
    (txFrame flag seq ack pl p s).cfg = s.cfg := rfl
@[simp] theorem txFrame_op (flag : Byte) (seq ack : Seq) (pl : List Byte) (p : Phase) (s : State) :
    (txFrame flag seq ack pl p s).op = s.op := rfl
@[simp] theorem txFrame_phase (flag : Byte) (seq ack : Seq) (pl : List Byte) (p : Phase) (s : State) :
    (txFrame flag seq ack pl p s).phase = p := rfl
@[simp] theorem txFrame_inited (flag : Byte) (seq ack : Seq) (pl : List Byte) (p : Phase) (s : State) :
    (txFrame flag seq ack pl p s).inited = s.inited := rfl
@[simp] theorem txFrame_conn (flag : Byte) (seq ack : Seq) (pl : List Byte) (p : Phase) (s : State) :
    (txFrame flag seq ack pl p s).conn = s.conn := rfl
@[simp] theorem txFrame_work (flag : Byte) (seq ack : Seq) (pl : List Byte) (p : Phase) (s : State) :
    (txFrame flag seq ack pl p s).work = s.work := rfl
@[simp] theorem txFrame_rx (flag : Byte) (seq ack : Seq) (pl : List Byte) (p : Phase) (s : State) :
    (txFrame flag seq ack pl p s).rx = s.rx := rfl
@[simp] theorem txFrame_txbuf (flag : Byte) (seq ack : Seq) (pl : List Byte) (p : Phase) (s : State) :
    (txFrame flag seq ack pl p s).txbuf = s.txbuf.writeBytes 0 (encodeFrame flag seq ack pl) := rfl
@[simp] theorem txFrame_txfill (flag : Byte) (seq ack : Seq) (pl : List Byte) (p : Phase) (s : State) :
    (txFrame flag seq ack pl p s).txfill = (encodeFrame flag seq ack pl).length := rfl
@[simp] theorem txFrame_txdata (flag : Byte) (seq ack : Seq) (pl : List Byte) (p : Phase) (s : State) :
    (txFrame flag seq ack pl p s).txdata = s.txdata := rfl
@[simp] theorem txFrame_out (flag : Byte) (seq ack : Seq) (pl : List Byte) (p : Phase) (s : State) :
    (txFrame flag seq ack pl p s).out = s.out := rfl
@[simp] theorem txFrame_args (flag : Byte) (seq ack : Seq) (pl : List Byte) (p : Phase) (s : State) :
    (txFrame flag seq ack pl p s).args = s.args := rfl
@[simp] theorem txFrame_result (flag : Byte) (seq ack : Seq) (pl : List Byte) (p : Phase) (s : State) :
    (txFrame flag seq ack pl p s).result = s.result := rfl
@[simp] theorem txFrame_host (flag : Byte) (seq ack : Seq) (pl : List Byte) (p : Phase) (s : State) :
    (txFrame flag seq ack pl p s).host = s.host := rfl
@[simp] theorem txFrame_chan (flag : Byte) (seq ack : Seq) (pl : List Byte) (p : Phase) (s : State) :
    (txFrame flag seq ack pl p s).chan = s.chan := rfl

/-! ### Answers an update does not change -/

@[simp] theorem fillTx_writeAnswer (bs : List Byte) (s : State) : (s.fillTx bs).writeAnswer = s.writeAnswer := rfl
@[simp] theorem setTicks_writeAnswer (v : Word) (s : State) : (s.setTicks v).writeAnswer = s.writeAnswer := rfl
@[simp] theorem goto_writeAnswer (p : Phase) (s : State) : (s.goto p).writeAnswer = s.writeAnswer := rfl
@[simp] theorem fillTx_readAnswer (bs : List Byte) (n : Nat) (s : State) :
    (s.fillTx bs).readAnswer n = s.readAnswer n := rfl
@[simp] theorem setTicks_readAnswer (v : Word) (n : Nat) (s : State) :
    (s.setTicks v).readAnswer n = s.readAnswer n := rfl
@[simp] theorem goto_readAnswer (p : Phase) (n : Nat) (s : State) : (s.goto p).readAnswer n = s.readAnswer n := rfl

end Sys2Proof.Machine.State
end

