-- ==== Sys2Proof/Laws/Ops.lean ====
section
/-! SUPPORT. One lemma per shared operation that says everything it can do; the provers cite these instead of unfolding. -/

namespace Sys2Proof.Machine

/-! ### Codec -/

@[simp] theorem length_header (flag : Byte) (seq ack : Seq) (n : Nat) : (header flag seq ack n).length = 7 := rfl

@[simp] theorem length_encodeFrame (flag : Byte) (seq ack : Seq) (payload : List Byte) :
    (encodeFrame flag seq ack payload).length = payload.length + 9 := by
  simp [encodeFrame]; omega

/-- A 16-bit field read back from its two bytes (R50, R70). -/
@[simp] theorem be16_hiByte_loByte (v : BitVec 16) : be16 (hiByte v) (loByte v) = v := by
  apply BitVec.eq_of_getLsbD_eq
  intro i hi
  unfold be16 hiByte loByte
  rw [BitVec.getLsbD_append]
  by_cases h : i < 8
  · simp [h]
  · have e : 8 + (i - 8) = i := by omega
    have h8 : i - 8 < 8 := by omega
    simp [h, e, h8]

@[simp] theorem hiByte_be16 (h l : Byte) : hiByte (be16 h l) = h := by
  ext i hi
  simp only [be16, hiByte, BitVec.getElem_extractLsb', BitVec.getLsbD_append]
  rw [if_neg (by omega), Nat.add_sub_cancel_left, BitVec.getLsbD_eq_getElem hi]

@[simp] theorem loByte_be16 (h l : Byte) : loByte (be16 h l) = l := by
  ext i hi
  simp only [be16, loByte, BitVec.getElem_extractLsb', BitVec.getLsbD_append]
  rw [if_pos (by omega)]
  simp [BitVec.getLsbD_eq_getElem hi]

@[simp] theorem tagOf_mkFlag (t : BitVec 6) (k : BitVec 2) : tagOf (mkFlag t k) = t := by
  ext i hi
  simp only [mkFlag, tagOf, BitVec.getElem_extractLsb', BitVec.getLsbD_append]
  rw [if_neg (by omega), Nat.add_sub_cancel_left, BitVec.getLsbD_eq_getElem hi]

@[simp] theorem classBits_mkFlag (t : BitVec 6) (k : BitVec 2) : classBits (mkFlag t k) = k := by
  ext i hi
  simp only [mkFlag, classBits, BitVec.getElem_extractLsb', BitVec.getLsbD_append]
  rw [if_pos (by omega)]
  simp [BitVec.getLsbD_eq_getElem hi]

/-- The checksum of a sequence continues from that of its front (R90). -/
theorem csum_append (xs ys : List Byte) : csum (xs ++ ys) = ys.foldl csumStep (csum xs) := by
  simp [csum, List.foldl_append]

/-- Everything a packet answer of DECODE says (R93): the inversion of `decodeFrame`. -/
theorem decodeFrame_packet {c : Config} {buf : List Byte} {p : Packet} {used : Nat}
    (h : decodeFrame c buf = .packet p used) :
    p = { flag := byteAt buf 0, seq := be16 (byteAt buf 1) (byteAt buf 2), ack := be16 (byteAt buf 3) (byteAt buf 4),
          payload := (buf.drop 7).take (be16 (byteAt buf 5) (byteAt buf 6)).toNat } ∧
      used = (be16 (byteAt buf 5) (byteAt buf 6)).toNat + 9 ∧
      tagOf (byteAt buf 0) = c.tag ∧ (be16 (byteAt buf 5) (byteAt buf 6)).toNat ≤ c.maxp ∧ used ≤ buf.length ∧
      csum (buf.take (used - 2)) = be16 (byteAt buf (used - 2)) (byteAt buf (used - 1)) := by
  unfold decodeFrame at h
  simp only [hdrLen, overhead] at h
  split at h
  · cases h
  split at h
  · cases h
  split at h
  · cases h
  split at h
  · cases h
  split at h
  · cases h
  · rename_i h1 h2 h3 h4 h5
    cases h
    refine ⟨rfl, rfl, not_not.mp h2, Nat.le_of_not_lt h3, Nat.le_of_not_lt h4, ?_⟩
    have e1 : (be16 (byteAt buf 5) (byteAt buf 6)).toNat + 9 - 2 = 7 + (be16 (byteAt buf 5) (byteAt buf 6)).toNat := by
      omega
    have e2 : (be16 (byteAt buf 5) (byteAt buf 6)).toNat + 9 - 1 = 8 + (be16 (byteAt buf 5) (byteAt buf 6)).toNat := by
      omega
    rw [e1, e2]
    exact not_not.mp h5

theorem Packet.payload_le_of_decode {c : Config} {buf : List Byte} {p : Packet} {used : Nat}
    (h : decodeFrame c buf = .packet p used) : p.payload.length ≤ c.maxp ∧ used = p.payload.length + 9 ∧
      used ≤ buf.length := by
  obtain ⟨rfl, hu, -, hn, hl, -⟩ := decodeFrame_packet h
  simp only [List.length_take, List.length_drop]
  omega

/-- What a packet's instruction carries, by class bits (R66). -/
theorem Packet.instr_cases (p : Packet) :
    (classBits p.flag = 0b00 ∧ p.instr = .data p.seq p.ack p.payload) ∨
      (classBits p.flag = 0b01 ∧ p.instr = .ack p.seq p.ack p.payload) ∨
      (classBits p.flag = 0b10 ∧ p.instr = .fin p.seq p.ack p.payload) ∨
      (classBits p.flag = 0b11 ∧ p.instr = .flag11 p.seq p.ack p.payload) := by
  have hall : ∀ k : BitVec 2, k = 0 ∨ k = 1 ∨ k = 2 ∨ k = 3 := by decide
  rcases hall (classBits p.flag) with h | h | h | h <;> simp [Packet.instr, h]

/-! ### Ports -/

/-- The frame in `TXBUF` after ENCODE is the frame (R46, R95). -/
@[simp] theorem fillTx_txBytes (bs : List Byte) (s : State) : (s.fillTx bs).txBytes = bs :=
  Memory.readBytes_writeBytes_same _ _ _

@[simp] theorem txFrame_txBytes (flag : Byte) (seq ack : Seq) (pl : List Byte) (p : Phase) (s : State) :
    (txFrame flag seq ack pl p s).txBytes = encodeFrame flag seq ack pl :=
  Memory.readBytes_writeBytes_same _ _ _

/-- Everything one write can do (R48, R95). -/
theorem chanWrite_cases (k : State → State) (s : State) :
    (s.writeAnswer = .ok ∧ chanWrite k s = k (s.logWrite s.txBytes)) ∨
      (s.writeAnswer = .err ∧ chanWrite k s = (s.logWrite s.txBytes).raise .tx) := by
  unfold chanWrite
  cases h : s.writeAnswer
  · exact .inl ⟨rfl, rfl⟩
  · exact .inr ⟨rfl, rfl⟩

/-- Everything one read can do (R47, R99). -/
theorem chanRead_cases (s : State) :
    (s.readAnswer s.room = .err ∧ chanRead s = (.raised, (s.logRead s.room).raise .rx)) ∨
      (s.readAnswer s.room = .bytes [] ∧ chanRead s = (.empty, s.logRead s.room)) ∨
      ∃ bs, s.readAnswer s.room = .bytes bs ∧ bs ≠ [] ∧
        ((bs.length ≤ s.room ∧
            chanRead s = (.got, { s.logRead s.room with rx := s.rx.append bs })) ∨
          (s.room < bs.length ∧ chanRead s = (.tooLong, s.logRead s.room))) := by
  unfold chanRead
  cases h : s.readAnswer s.room with
  | err => exact .inl ⟨rfl, rfl⟩
  | bytes bs =>
    cases bs with
    | nil => exact .inr (.inl ⟨rfl, by simp⟩)
    | cons b bs =>
      refine .inr (.inr ⟨b :: bs, rfl, by simp, ?_⟩)
      by_cases hl : s.room < (b :: bs).length
      · exact .inr ⟨hl, by simp only [if_pos hl]⟩
      · exact .inl ⟨Nat.le_of_not_lt hl, by simp only [if_neg hl]; rfl⟩

/-- Everything RXREAD can do (R99). -/
theorem rxRead_cases (s : State) :
    (s.readAnswer s.room = .err ∧ rxRead s = (.raised, (s.logRead s.room).raise .rx)) ∨
      (s.readAnswer s.room = .bytes [] ∧
        rxRead s =
          (if s.conn.maxTimeout ≤ s.work.ticks + 1 then .timedOut else .tick,
            (s.logRead s.room).setTicks (s.work.ticks + 1))) ∨
      ∃ bs, s.readAnswer s.room = .bytes bs ∧ bs ≠ [] ∧
        ((bs.length ≤ s.room ∧
            rxRead s = (.got, { s.logRead s.room with rx := s.rx.append bs })) ∨
          (s.room < bs.length ∧ rxRead s = (.tooLong, s.logRead s.room))) := by
  unfold rxRead
  obtain ⟨ha, hr⟩ | ⟨ha, hr⟩ | ⟨bs, ha, hb, ⟨hl, hr⟩ | ⟨hl, hr⟩⟩ := chanRead_cases s
  · exact .inl ⟨ha, by rw [hr]⟩
  · refine .inr (.inl ⟨ha, ?_⟩)
    rw [hr]
    by_cases ht : s.conn.maxTimeout ≤ s.work.ticks + 1
    · rw [if_pos ht]; exact if_pos ht
    · rw [if_neg ht]; exact if_neg ht
  · exact .inr (.inr ⟨bs, ha, hb, .inl ⟨hl, by rw [hr]⟩⟩)
  · exact .inr (.inr ⟨bs, ha, hb, .inr ⟨hl, by rw [hr]⟩⟩)

/-- Everything NEXTFRAME can do (R100). -/
theorem nextFrame_cases (s : State) :
    (decodeFrame s.cfg s.rx.bytes = .needMore ∧ nextFrame s = (none, s)) ∨
      (∃ why, decodeFrame s.cfg s.rx.bytes = .invalid why ∧ nextFrame s = (none, { s with rx := s.rx.discard })) ∨
      ∃ p used, decodeFrame s.cfg s.rx.bytes = .packet p used ∧
        nextFrame s = (some p.instr, { s with rx := s.rx.consume used }) := by
  unfold nextFrame
  cases h : decodeFrame s.cfg s.rx.bytes with
  | needMore => exact .inl ⟨rfl, rfl⟩
  | invalid why => exact .inr (.inl ⟨why, rfl, rfl⟩)
  | packet p used => exact .inr (.inr ⟨p, used, rfl, rfl⟩)

/-! ### Launch -/

/-- Everything the launch test can do (R104, R171, R172). -/
theorem guardLaunch_cases (needsInit : Bool) (s : State) (k : Outcome) :
    (s.op = .idle ∧ (needsInit = true → s.inited = true) ∧ guardLaunch needsInit s k = k) ∨
      (s.op ≠ .idle ∧ guardLaunch needsInit s k = .refused .busyCore) ∨
      (s.op = .idle ∧ needsInit = true ∧ s.inited = false ∧ guardLaunch needsInit s k = .refused .notInited) := by
  unfold guardLaunch
  by_cases ho : s.op = .idle
  · cases needsInit
    · exact .inl ⟨ho, by simp, by simp [ho]⟩
    · cases hi : s.inited
      · exact .inr (.inr ⟨ho, rfl, rfl, by simp [ho]⟩)
      · exact .inl ⟨ho, by simp, by simp [ho]⟩
  · exact .inr (.inl ⟨ho, by simp [ho]⟩)

end Sys2Proof.Machine
end

