-- ==== Sys2Proof/Laws/Engines.lean ====
section
/-! SUPPORT. What the engines' operations can do: the drain's induction, the frame of each shared arm, and the step by cases. -/

namespace Sys2Proof.Machine

/-! ### The drain -/

/-- Everything one turn of the drain can do (R130). -/
theorem drainTurn_cases (s : State) :
    (drainTurn s = none ∧ (s.work.cap ≤ s.work.outcnt ∨ (s.conn.slot s.conn.wnd).len = 0)) ∨
      (s.work.outcnt < s.work.cap ∧ (s.conn.slot s.conn.wnd).len ≠ 0 ∧
        (s.conn.slot s.conn.wnd).len ≤ s.work.cap - s.work.outcnt ∧ drainTurn s = some (drainFull s)) ∨
      (s.work.outcnt < s.work.cap ∧ s.work.cap - s.work.outcnt < (s.conn.slot s.conn.wnd).len ∧
        drainTurn s = some (drainPart (s.work.cap - s.work.outcnt) s)) := by
  unfold drainTurn
  by_cases hc : s.work.outcnt < s.work.cap
  · by_cases hz : (s.conn.slot s.conn.wnd).len = 0
    · exact .inl ⟨by simp [hz], .inr hz⟩
    · by_cases hl : (s.conn.slot s.conn.wnd).len ≤ s.work.cap - s.work.outcnt
      · exact .inr (.inl ⟨hc, hz, hl, by simp [hc, hz, hl]⟩)
      · exact .inr (.inr ⟨hc, Nat.lt_of_not_le hl, by simp [hc, hz, hl]⟩)
  · exact .inl ⟨by simp [hc], .inl (Nat.le_of_not_lt hc)⟩

/-- What every turn of the drain keeps, the drain keeps (R130). -/
theorem drain_induct {P : State → Prop} (turn : ∀ s t, P s → drainTurn s = some t → P t) (s : State) (h : P s) :
    P (drain s) := by
  suffices ∀ n s, P s → P (drainLoop n s) from this _ _ h
  intro n
  induction n with
  | zero => exact fun s h => h
  | succ n ih =>
    intro s h
    unfold drainLoop
    cases ht : drainTurn s with
    | none => exact h
    | some t => exact ih t (turn s t h ht)

/-- The frame of the drain: only `OUT`, `OUTCNT`, `ACK`, `WND` and `WIN` move (R130). -/
theorem drain_frame (s : State) :
    drain s =
      { s with
        out := (drain s).out
        work := { s.work with outcnt := (drain s).work.outcnt }
        conn :=
          { s.conn with ack := (drain s).conn.ack, wnd := (drain s).conn.wnd, win := (drain s).conn.win } } := by
  have h : { drain s with
      out := s.out
      work := { (drain s).work with outcnt := s.work.outcnt }
      conn := { (drain s).conn with ack := s.conn.ack, wnd := s.conn.wnd, win := s.conn.win } } = s :=
    drain_induct (P := fun t =>
      { t with
        out := s.out
        work := { t.work with outcnt := s.work.outcnt }
        conn := { t.conn with ack := s.conn.ack, wnd := s.conn.wnd, win := s.conn.win } } = s)
      (fun u v h ht => by
        obtain ⟨hn, -⟩ | ⟨-, -, -, hs⟩ | ⟨-, -, hs⟩ := drainTurn_cases u
        · rw [hn] at ht; cases ht
        · rw [hs] at ht; cases ht; exact h
        · rw [hs] at ht; cases ht; exact h) s rfl
  generalize drain s = t at h ⊢
  conv_rhs => rw [← h]

@[simp] theorem drain_cfg (s : State) : (drain s).cfg = s.cfg := by rw [drain_frame]
@[simp] theorem drain_op (s : State) : (drain s).op = s.op := by rw [drain_frame]
@[simp] theorem drain_phase (s : State) : (drain s).phase = s.phase := by rw [drain_frame]
@[simp] theorem drain_inited (s : State) : (drain s).inited = s.inited := by rw [drain_frame]
@[simp] theorem drain_rx (s : State) : (drain s).rx = s.rx := by rw [drain_frame]
@[simp] theorem drain_txbuf (s : State) : (drain s).txbuf = s.txbuf := by rw [drain_frame]
@[simp] theorem drain_txfill (s : State) : (drain s).txfill = s.txfill := by rw [drain_frame]
@[simp] theorem drain_txdata (s : State) : (drain s).txdata = s.txdata := by rw [drain_frame]
@[simp] theorem drain_args (s : State) : (drain s).args = s.args := by rw [drain_frame]
@[simp] theorem drain_result (s : State) : (drain s).result = s.result := by rw [drain_frame]
@[simp] theorem drain_host (s : State) : (drain s).host = s.host := by rw [drain_frame]
@[simp] theorem drain_chan (s : State) : (drain s).chan = s.chan := by rw [drain_frame]
@[simp] theorem drain_seq (s : State) : (drain s).conn.seq = s.conn.seq := by rw [drain_frame]
@[simp] theorem drain_closed (s : State) : (drain s).conn.closed = s.conn.closed := by rw [drain_frame]
@[simp] theorem drain_ctx (s : State) : (drain s).conn.ctx = s.conn.ctx := by rw [drain_frame]
@[simp] theorem drain_cap (s : State) : (drain s).work.cap = s.work.cap := by rw [drain_frame]
@[simp] theorem drain_maxRetrans (s : State) : (drain s).conn.maxRetrans = s.conn.maxRetrans := by rw [drain_frame]
@[simp] theorem drain_maxTimeout (s : State) : (drain s).conn.maxTimeout = s.conn.maxTimeout := by rw [drain_frame]

/-! ### The step -/

theorem step_idle {s : State} (h : s.op = .idle) : step s = stepIdle s := by
  simp [step, nextStep, h]

theorem step_busy {s : State} (h : s.op ≠ .idle) (hp : s.phase.op = s.op) : step s = resume s := by
  simp [step, nextStep, h, hp]

/-- Everything one turn of a decode pass can do (R100, R101). -/
theorem stepPass_cases (s : State) :
    (decodeFrame s.cfg s.rx.bytes = .needMore ∧ stepPass s = .next (s.goto s.phase.afterPass)) ∨
      (∃ why, decodeFrame s.cfg s.rx.bytes = .invalid why ∧
        stepPass s = .next ({ s with rx := s.rx.discard }.goto s.phase.afterPass)) ∨
      ∃ p used, decodeFrame s.cfg s.rx.bytes = .packet p used ∧
        stepPass s = exec p.instr { s with rx := s.rx.consume used } := by
  unfold stepPass
  obtain ⟨h, hn⟩ | ⟨why, h, hn⟩ | ⟨p, used, h, hn⟩ := nextFrame_cases s
  · exact .inl ⟨h, by rw [hn]⟩
  · exact .inr (.inl ⟨why, h, by rw [hn]⟩)
  · exact .inr (.inr ⟨p, used, h, by rw [hn]⟩)

/-- The runs of `a + b` steps are those of `a` steps and then `b`. -/
theorem run_add {a b : Nat} {s t : State} (h : run a s = .next t) : run (a + b) s = run b t := by
  induction a generalizing s with
  | zero => cases h; rw [Nat.zero_add]
  | succ a ih =>
    rw [Nat.add_right_comm]
    simp only [run] at h ⊢
    cases hs : step s with
    | next s1 => rw [hs] at h; exact ih h
    | fault f => rw [hs] at h; cases h
    | refused r => rw [hs] at h; cases h

end Sys2Proof.Machine
end

