-- ==== Sys2Proof/Laws/PerInstr.lean ====
section
/-! SUPPORT. Per-instruction families: the encoder gives each instruction the fixed bits of its row of
spec/opcode_table.json. -/

namespace Sys2Proof.Laws

/-- The fixed bits of a row: `CMD` of a command, `flag[1:0]` of a frame. -/
inductive RowBits where
  | cmd (v : BitVec 3)
  | flag (v : BitVec 2)
  deriving DecidableEq, Repr

/-- The table's rows. -/
def rowBits : Instr → RowBits
  | .data .. => .flag 0b00
  | .ack .. => .flag 0b01
  | .fin .. => .flag 0b10
  | .flag11 .. => .flag 0b11
  | .init .. => .cmd 0b000
  | .reset => .cmd 0b001
  | .send _ => .cmd 0b010
  | .recv _ => .cmd 0b011
  | .close _ => .cmd 0b100
  | .wait _ => .cmd 0b101
  | .isclosed => .cmd 0b110
  | .setclosed => .cmd 0b111

/-- The fixed bits an encoded instruction has. -/
def encodedBits : Encoded → RowBits
  | .command l => .cmd l.cmd
  | .frame bs => .flag (classBits (byteAt bs 0))

/-- Whatever the core's parameters, the encoding of `i` has its row's fixed bits. -/
def TableBits.Statement (i : Instr) : Prop := ∀ c, encodedBits (encode c i) = rowBits i

/-- The flag byte is the first byte of a frame. -/
theorem byteAt_encodeFrame_zero (flag : Byte) (seq ack : Seq) (pl : List Byte) :
    byteAt (encodeFrame flag seq ack pl) 0 = flag := rfl

namespace TableBits

theorem data (seq ack : Seq) (pl : List Byte) : Statement (.data seq ack pl) := fun _ => by
  simp [encode, encodedBits, rowBits, byteAt_encodeFrame_zero]

theorem ack (seq ack : Seq) (pl : List Byte) : Statement (.ack seq ack pl) := fun _ => by
  simp [encode, encodedBits, rowBits, byteAt_encodeFrame_zero]

theorem fin (seq ack : Seq) (pl : List Byte) : Statement (.fin seq ack pl) := fun _ => by
  simp [encode, encodedBits, rowBits, byteAt_encodeFrame_zero]

theorem flag11 (seq ack : Seq) (pl : List Byte) : Statement (.flag11 seq ack pl) := fun _ => by
  simp [encode, encodedBits, rowBits, byteAt_encodeFrame_zero]

theorem init (r t : Word) (ctx : Nat) : Statement (.init r t ctx) := fun _ => rfl

theorem reset : Statement .reset := fun _ => rfl

theorem send (n : Word) : Statement (.send n) := fun _ => rfl

theorem recv (n : Word) : Statement (.recv n) := fun _ => rfl

theorem close (n : Word) : Statement (.close n) := fun _ => rfl

theorem wait (n : Word) : Statement (.wait n) := fun _ => rfl

theorem isclosed : Statement .isclosed := fun _ => rfl

theorem setclosed : Statement .setclosed := fun _ => rfl

end TableBits

end Sys2Proof.Laws
end

