-- ==== Sys2Proof/Tests/Slice0.lean ====
section
/-! SUPPORT. Tests whose expected results are those of spec/95_test_vectors.md (each names its vector), the smoke test of
WellFormed, the decoding of words written out from the spec's encodings, and for each statement with hypotheses a named witness
that meets them. -/

namespace Sys2Proof.Tests

open Sys2Proof Sys2Proof.Machine

/-! ### Small states -/

/-- The parameters of the vectors of 95_test_vectors.md sections 2.5 and 2.6, with a context of 4 bits. -/
def cfg : Config := { w := 4, maxp := 4, tag := 0x2A, rxcap := 13, ctxw := 4, flag11 := .ack }

/-- A core right after INIT 3, 2, 7. -/
def fresh : State :=
  { State.resetWith cfg with
    inited := true
    conn := { (State.resetWith cfg).conn with maxRetrans := 3, maxTimeout := 2, ctx := 7 } }

/-- The core `s` at a place of a command's rule. -/
def place (o : Op) (p : Phase) (s : State) : State := { s with op := o, phase := p }

/-- The core `s` with a channel script. -/
def script (rs : List ReadAnswer) (ws : List WriteAnswer) (s : State) : State :=
  { s with chan := { s.chan with reads := rs, writes := ws } }

/-- The core `s` with bytes in `RXBUF`. -/
def holding (bs : List Byte) (s : State) : State := { s with rx := (RxBuf.discard s.rx).append bs }

/-- A slot with the bytes `bs`. -/
def slot (bs : List Byte) : Slot := { len := bs.length, data := Memory.writeBytes [] 0 bs }

/-- Inside RECV's decode pass, with room for `cap` bytes and an `Ok` for the next write. -/
def receiving (cap : Nat) (s : State) : State :=
  script [] [.ok] { place .recv .recvPass s with work := { s.work with cap := cap } }

/-- Inside SEND's decode pass: a burst of `n` slots, `TICKS` and `RETRY` 1, and an `Ok` for the next write. -/
def sending (n : Nat) (acked : Word) (seq : Seq) : State :=
  script [] [.ok]
    { place .send .sendPass fresh with
      conn := { fresh.conn with seq := seq }
      work :=
        { fresh.work with len0 := 4 * n, remain := 4 * n, burstI := n, acked := acked, ticks := 1, retry := 1 } }

/-- The outcome is a next state and `p` is true of it. -/
def nextWith (o : Outcome) (p : State → Bool) : Bool :=
  match o with
  | .next t => p t
  | .fault _ => false
  | .refused _ => false

/-- A command issued, and `n` steps of it. -/
def issueAndRun (n : Nat) (i : Instr) (s : State) : Outcome :=
  match exec i s with
  | .next t => run n t
  | .fault f => .fault f
  | .refused r => .refused r

/-- The transaction written last. -/
def lastWrite (t : State) : List Byte :=
  match t.chan.trace with
  | .write _ bs _ :: _ => bs
  | _ => []

/-- The frame G of 95_test_vectors.md section 2.3: DATA(1, 0, "hi"). -/
def frameG : List Byte := [0xA8, 0x00, 0x01, 0x00, 0x00, 0x00, 0x02, 0x68, 0x69, 0x2C, 0x9E]

/-- ACK(0, 0) and FIN(0, 0), the frames of V-A4 and V-A3. -/
def frameAck : List Byte := [0xA9, 0x00, 0x00, 0x00, 0x00, 0x00, 0x00, 0xA4, 0x02]
def frameFin : List Byte := [0xAA, 0x00, 0x00, 0x00, 0x00, 0x00, 0x00, 0xA8, 0x02]

/-! ### WellFormed refuses an ill-formed term for each check -/

theorem test_flaw_payload : (Instr.data 0 0 [1, 2, 3, 4, 5]).flaw cfg = some .payloadTooLong ∧
    (Instr.ack 0 0 [1, 2, 3, 4, 5]).flaw cfg = some .payloadTooLong ∧
    (Instr.fin 0 0 [1, 2, 3, 4, 5]).flaw cfg = some .payloadTooLong ∧
    (Instr.flag11 0 0 [1, 2, 3, 4, 5]).flaw cfg = some .payloadTooLong := by decide

theorem test_flaw_count : (Instr.send 0x80000000).flaw cfg = some .countTooLarge ∧
    (Instr.recv 0x80000000).flaw cfg = some .countTooLarge := by decide

theorem test_flaw_context : (Instr.init 5 3 16).flaw cfg = some .contextTooWide := by decide

/-! ### Checksum, ENCODE, DECODE (sections 2.1 to 2.3) -/

theorem test_csum : csum [] = 0 ∧ csum [0x01, 0x00] = 0x8000 ∧ csum [0xFF, 0xFF] = 0x817E ∧
    csum [0x41, 0x42, 0x43] = 0x4074 ∧ csumStep 0xFFFF 0xFF = 0x00FE := by decide

theorem test_encode_frame : encodeFrame 0xA8 0xFFFF 0x0102 [0x00, 0xFF, 0x80] =
      [0xA8, 0xFF, 0xFF, 0x01, 0x02, 0x00, 0x03, 0x00, 0xFF, 0x80, 0x46, 0x03] ∧
    encodeFrame 0xA9 0x1234 0xFFFF [] = [0xA9, 0x12, 0x34, 0xFF, 0xFF, 0x00, 0x00, 0x14, 0x66] := by decide

theorem test_decode_need_more : decodeFrame cfg [] = .needMore ∧ decodeFrame cfg (frameG.take 10) = .needMore ∧
    decodeFrame cfg [0x54, 0x00, 0x00] = .needMore ∧
    decodeFrame cfg [0xA8, 0x00, 0x00, 0x00, 0x00, 0x00, 0x04] = .needMore ∧
    decodeFrame cfg (frameG.set 6 0x03) = .needMore := by decide

theorem test_decode_invalid : decodeFrame cfg [0x54, 0x00, 0x00, 0x00, 0x00, 0x00, 0x00] = .invalid .badTag ∧
    decodeFrame cfg [0xA8, 0x00, 0x00, 0x00, 0x00, 0x00, 0x05] = .invalid .lenTooLong ∧
    decodeFrame cfg (frameG.set 6 0x01) = .invalid .badChecksum ∧
    decodeFrame cfg (frameG.set 0 0xA9) = .invalid .badChecksum := by decide

theorem test_decode_packet : decodeFrame cfg (frameG ++ [0xA8]) =
      .packet { flag := 0xA8, seq := 1, ack := 0, payload := [0x68, 0x69] } 11 ∧
    decodeFrame cfg [0xA8, 0x00, 0x09, 0x00, 0x00, 0x00, 0x00, 0x30, 0x03] =
      .packet { flag := 0xA8, seq := 9, ack := 0, payload := [] } 9 := by decide

/-! ### Each constructor from a word written out from its encoding (R60, R61, R74) -/

theorem test_decode_data_word : decode cfg (.frame
    [0b10101000, 0xFF, 0xFF, 0x01, 0x02, 0x00, 0x03, 0x00, 0xFF, 0x80, 0x46, 0x03]) =
      .ok (.data 0xFFFF 0x0102 [0x00, 0xFF, 0x80]) := by decide

theorem test_decode_ack_word : decode cfg (.frame [0b10101001, 0x12, 0x34, 0xFF, 0xFF, 0x00, 0x00, 0x14, 0x66]) =
    .ok (.ack 0x1234 0xFFFF []) := by decide

theorem test_decode_fin_word : decode cfg (.frame [0b10101010, 0x00, 0x03, 0x00, 0x07, 0x00, 0x00, 0x98, 0x04]) =
    .ok (.fin 3 7 []) := by decide

theorem test_decode_flag11_word : decode cfg (.frame [0b10101011, 0x00, 0x02, 0x00, 0x03, 0x00, 0x00, 0x8C, 0x03]) =
    .ok (.flag11 2 3 []) := by decide

theorem test_decode_command_words :
    [0b000, 0b001, 0b010, 0b011, 0b100, 0b101, 0b110, 0b111].map
      (fun c => decodeLaunch { cmd := c, arg0 := 9, arg1 := 8, arg2 := 7 }) =
    [.init 9 8 7, .reset, .send 9, .recv 9, .close 9, .wait 9, .isclosed, .setclosed] := by decide

theorem test_decode_rejects : decode cfg (.frame (frameG.take 10)) = .error .incomplete ∧
    decode cfg (.frame (frameG.set 0 0xA9)) = .error (.malformed .badChecksum) ∧
    decode cfg (.frame (frameG ++ [0xA8])) = .error .trailing := ⟨rfl, rfl, rfl⟩

theorem test_table_words : decodeTableWord 8 0b00000101 = some (.wait 0) ∧
    decodeTableWord 8 0b10101010 = some (.fin 0 0 []) ∧ decodeTableWord 56 0b00000011 = some (.flag11 0 0 []) := by decide

theorem test_table_word_runs :
    nextWith (step (State.reset.withFetchWord 8 0b000)) (fun t => t.inited && t.op == .idle) = true ∧
    nextWith (step (State.reset.withFetchWord 8 0b10101010)) (fun t => t.phase == .recvEcho) = true := by decide

/-! ### Byte spaces -/

theorem test_memory_canonical : Memory.writeBytes [] 3 [1, 0, 2] = [(3, 1), (5, 2)] ∧
    Memory.write [(3, 1), (5, 2)] 3 0 = [(5, 2)] ∧ Memory.write [(3, 1), (5, 2)] 4 9 = [(3, 1), (4, 9), (5, 2)] ∧
    Memory.readBytes [(3, 1), (5, 2)] 2 4 = [0, 1, 0, 2] := by decide

/-! ### Commands -/

/-- V-S1. -/
theorem test_init : nextWith (exec (.init 5 3 7) (State.resetWith cfg)) (fun t =>
    t.inited && t.conn.maxRetrans == 5 && t.conn.maxTimeout == 3 && t.conn.ctx == 7 && t.result == 0) = true := by decide

/-- V-S2. -/
theorem test_reset : nextWith
    (exec .reset { fresh with conn :=
      { fresh.conn with seq := 4, ack := 2, wnd := 2, closed := true, win := fresh.conn.win.set 3 (slot [1, 2]) } })
    (fun t => t.conn.seq == 0 && t.conn.ack == 0 && t.conn.wnd == 0 && !t.conn.closed && (t.conn.slot 3).len == 0 &&
      t.conn.maxRetrans == 3 && t.conn.ctx == 7) = true := by decide

/-- V-S3, V-S4. -/
theorem test_isclosed : nextWith (exec .isclosed fresh) (fun t => t.result == 0) = true ∧
    nextWith (exec .isclosed fresh.setClosed) (fun t => t.result == 1) = true := by decide

/-- V-S4. -/
theorem test_setclosed : nextWith (exec .setclosed fresh) (fun t => t.conn.closed && t.result == 0) = true := by decide

/-- V-S5: no channel transaction, `ERR_FINAL`. -/
theorem test_send_closed : nextWith (exec (.send 4) fresh.setClosed) (fun t =>
    t.result == 0xFFFFFFFD && t.op == .idle && t.chan.trace == []) = true := by decide

/-- P6, the first write. -/
theorem test_send_writes : nextWith
    (exec (.send 4) (script [] [.ok] { fresh with txdata := Memory.writeBytes [] 0 [0x77, 0x78, 0x79, 0x7A] }))
    (fun s => nextWith (run 3 s) fun t =>
      lastWrite t == [0xA8, 0x00, 0x00, 0x00, 0x00, 0x00, 0x04, 0x77, 0x78, 0x79, 0x7A, 0xCA, 0xE3]) = true := by decide

/-- V-R1: "EFGH" is partially consumed. -/
theorem test_recv_partial : nextWith
    (issueAndRun 3 (.recv 6) { fresh with conn :=
      { fresh.conn with win := [slot [0x41, 0x42, 0x43, 0x44], slot [0x45, 0x46, 0x47, 0x48], slot [], slot []] } })
    (fun t => t.out.readBytes 0 6 == [0x41, 0x42, 0x43, 0x44, 0x45, 0x46] && t.result == 6 && t.conn.ack == 1 &&
      t.conn.wnd == 1 && (t.conn.slot 1).bytes == [0x47, 0x48]) = true := by decide

/-- V-R2: a length equal to the room is a full consumption. -/
theorem test_recv_equal : nextWith
    (issueAndRun 2 (.recv 2) { fresh with conn :=
      { fresh.conn with ack := 1, wnd := 1, win := [slot [], slot [0x47, 0x48], slot [], slot []] } })
    (fun t => t.out.readBytes 0 2 == [0x47, 0x48] && t.result == 2 && t.conn.ack == 2 && t.conn.wnd == 2 &&
      (t.conn.slot 1).len == 0) = true := by decide

/-- P2: CLOSE on a closed connection. -/
theorem test_close_closed : nextWith (exec (.close 3) fresh.setClosed) (fun t =>
    t.result == 0 && t.op == .idle && t.chan.trace == []) = true := by decide

/-- P3: attempt 1 writes FIN(5, 2). -/
theorem test_close_fin : nextWith
    (exec (.close 3) (script [] [.ok] { fresh with conn := { fresh.conn with seq := 5, ack := 2 } }))
    (fun s => nextWith (run 2 s) fun t =>
      lastWrite t == [0xAA, 0x00, 0x05, 0x00, 0x02, 0x00, 0x00, 0x78, 0x03] && t.phase == .closeWait) = true := by decide

/-- P4: the budget is 4 reads. -/
theorem test_wait : nextWith (exec (.wait 4) (script [.bytes []] [] fresh)) (fun s => nextWith (run 2 s) fun t =>
    t.work.budgetLeft == 3 && t.work.ticks == 0 && t.phase == .waitRead) = true := by decide

/-- V-S6: refused before INIT. -/
theorem test_before_init : exec (.wait 4) (State.resetWith cfg) = .refused .notInited ∧
    exec .isclosed (State.resetWith cfg) = .refused .notInited := ⟨rfl, rfl⟩

/-! ### Frames -/

/-- V-W2: the last place of the window; ACK(0, 5). -/
theorem test_data_last_place : nextWith
    (handleFrame (.data 5 0 [0x65, 0x64, 0x67, 0x65]) (receiving 8 { fresh with conn := { fresh.conn with ack := 2, wnd := 2 } }))
    (fun t => (t.conn.slot 1).bytes == [0x65, 0x64, 0x67, 0x65] && t.conn.ack == 2 && t.work.outcnt == 0 &&
      lastWrite t == [0xA9, 0x00, 0x00, 0x00, 0x05, 0x00, 0x00, 0xE4, 0x03]) = true := by decide

/-- V-W6: the second frame, at the wrap; the drain takes slots 3 and 0. -/
theorem test_data_wrap : nextWith
    (handleFrame (.data 0xFFFF 0 [0x41, 0x41, 0x41, 0x41]) (receiving 8 { fresh with conn :=
      { fresh.conn with ack := 0xFFFF, wnd := 3, win := [slot [0x42, 0x42, 0x42, 0x42], slot [], slot [], slot []] } }))
    (fun t => t.out.readBytes 0 8 == [0x41, 0x41, 0x41, 0x41, 0x42, 0x42, 0x42, 0x42] && t.result == 8 &&
      t.conn.ack == 1 && t.conn.wnd == 1 && t.op == .idle) = true := by decide

/-- P5: ACK(0, 0000) against `SEQ` = FFFE sets bit 2. -/
theorem test_ack_wrap : nextWith (exec (.ack 0 0 []) (sending 3 0 0xFFFE)) (fun t =>
    t.work.acked == 0b100 && t.work.retry == 0 && t.work.ticks == 0) = true := by decide

/-- P8: ACK(0, 9) is out of range. -/
theorem test_ack_out_of_range : nextWith (exec (.ack 0 9 []) (sending 4 0b1010 0)) (fun t =>
    t.work.acked == 0b1010 && t.work.retry == 0) = true := by decide

/-- P5: FIN(7, FFFF) marks bit 0, is echoed, and closes. -/
theorem test_fin_in_send : nextWith (handleFrame (.fin 7 0xFFFF []) (sending 3 0b100 0xFFFE)) (fun t =>
    t.work.acked == 0b101 && t.conn.closed && t.op == .send &&
      lastWrite t == [0xAA, 0x00, 0x07, 0xFF, 0xFF, 0x00, 0x00, 0xB8, 0x62]) = true := by decide

/-- P2: FIN(2, 0) in RECV is answered with FIN(0, 2). -/
theorem test_fin_in_recv : nextWith
    (handleFrame (.fin 2 0 []) (receiving 10 { fresh with conn := { fresh.conn with ack := 2 } }))
    (fun t => t.conn.closed && t.op == .idle && t.result == 0 &&
      lastWrite t == [0xAA, 0x00, 0x00, 0x00, 0x02, 0x00, 0x00, 0x28, 0x03]) = true := by decide

/-- V-A7: as ACK, `ack` = 1 is out of range. V-A8: as FIN it is inside, and is echoed. -/
theorem test_flag11 :
    nextWith (handleFrame (.flag11 0 1 []) (sending 1 0 0)) (fun t => t.work.acked == 0 && !t.conn.closed) = true ∧
    nextWith (handleFrame (.flag11 0 1 []) { sending 1 0 0 with cfg := { cfg with flag11 := .fin } }) (fun t =>
      t.work.acked == 1 && t.conn.closed &&
        lastWrite t == [0xAA, 0x00, 0x00, 0x00, 0x01, 0x00, 0x00, 0xE8, 0x02]) = true := by decide

/-- The state ADVANCE is tried on in V-A1 and V-A2. -/
def advancing (acked : Word) (remain : Nat) : State :=
  { fresh with cfg := { cfg with maxp := 32 }, work := { fresh.work with acked := acked, remain := remain } }

/-- V-A1: over a gap. V-A2: past the end of the data. -/
theorem test_advance : (advance (advancing 0b1011 100)).conn.seq = 2 ∧
    (advance (advancing 0b1011 100)).work.remain = 36 ∧ (advance (advancing 0b1011 100)).work.acked = 0b10 ∧
    (advance (advancing 0b11 36)).work.remain = 0 := by decide

/-- V-P2b: a good frame behind stray bytes is discarded with them. -/
theorem test_discard : nextWith (step (place .recv .recvPass (holding ([0x54, 0x01] ++ frameG) fresh))) (fun t =>
    t.rx.fill == 0 && t.phase == .recvWait && t.chan.trace == []) = true := by decide

/-! ### Witnesses: the hypotheses of each statement are met by a concrete state

A statement with clauses has a witness for each, at a boundary of its range. -/

/-- One command of the host. -/
def hostCmd : HostCmd := { launch := { cmd := 0b011, arg0 := 8, arg1 := 0, arg2 := 0 }, txdata := [], out := [] }

/-- A flag byte of another tag. -/
def frameBad : List Byte := [0x54, 0x00, 0x00, 0x00, 0x00, 0x00, 0x00]

/-- `RXBUF` with one byte less than its capacity. -/
def nearlyFull (s : State) : State := holding (List.replicate 12 0) s

/-- The smallest and the largest core. -/
theorem witness_ResetIsSound :
    Config.Legal { w := 1, maxp := 1, tag := 0, rxcap := 10, ctxw := 0, flag11 := .ack } ∧
    Config.Legal { w := 32, maxp := 65535, tag := 63, rxcap := 65544, ctxw := 64, flag11 := .fin } := by decide

/-- An idle core far from reset, for which no command waits. -/
theorem witness_ResetIsIdleAndUninitialised : fresh.setClosed.op = .idle ∧ fresh.setClosed.host = [] := ⟨rfl, rfl⟩

theorem witness_StepRunsIssuedCommand : { fresh with host := [hostCmd] }.op = .idle ∧
    { fresh with host := [hostCmd] }.host = hostCmd :: [] := ⟨rfl, rfl⟩

theorem witness_StepRunsDecodedFrame :
    ∃ used p, decodeFrame (holding frameG fresh).cfg (holding frameG fresh).rx.bytes = .packet p used :=
  ⟨11, { flag := 0xA8, seq := 1, ack := 0, payload := [0x68, 0x69] }, by decide⟩

theorem witness_StepRunsDecodedFrame_places :
    (place .send .sendPass fresh).phase = .sendPass ∧ (place .recv .recvPass fresh).phase = .recvPass ∧
    (place .close .closePass fresh).phase = .closePass ∧ (place .wait .waitPass fresh).phase = .waitPass :=
  ⟨rfl, rfl, rfl, rfl⟩

theorem witness_InstructionsOutsideTheirDomainAreRefused :
    ((Instr.wait 4).isFrame = false ∧ (place .recv .recvWait fresh).op ≠ .idle) ∧
    ((Instr.isclosed).isFrame = false ∧ (State.resetWith cfg).op = .idle ∧ (State.resetWith cfg).inited = false) ∧
    (fresh.op = .idle ∧ fresh.inited = true ∧ 2 ^ 31 ≤ (0x80000000 : Word).toNat) ∧
    ((receiving 8 fresh).op = .recv ∧ (receiving 8 fresh).phase = .recvPass ∧
      (receiving 8 fresh).cfg.maxp < [(1 : Byte), 2, 3, 4, 5].length) := by decide

/-- The read points, each at its own command. -/
theorem witness_read_points (s : State) :
    ((place .send .sendRead s).op = .send ∧ (place .send .sendRead s).phase = .sendRead) ∧
    ((place .recv .recvWait s).op = .recv ∧ (place .recv .recvWait s).phase = .recvWait) ∧
    ((place .close .closeWait s).op = .close ∧ (place .close .closeWait s).phase = .closeWait) ∧
    ((place .wait .waitPoll s).op = .wait ∧ (place .wait .waitPoll s).phase = .waitPoll) :=
  ⟨⟨rfl, rfl⟩, ⟨rfl, rfl⟩, ⟨rfl, rfl⟩, ⟨rfl, rfl⟩⟩

/-- One byte more than there is room for. -/
theorem witness_OverlongAnswerIsRefused :
    let s := script [.bytes [0, 0]] [] (nearlyFull fresh)
    s.chan.reads = .bytes [0, 0] :: [] ∧ s.cfg.rxcap - s.rx.fill < [(0 : Byte), 0].length := by decide

/-- The longest payload, and the empty one. -/
theorem witness_EncodedFrameDecodesBack : cfg.maxp ≤ 65535 ∧ tagOf 0xAB = cfg.tag ∧
    [(1 : Byte), 2, 3, 4].length ≤ cfg.maxp ∧ ([] : List Byte).length ≤ cfg.maxp := by decide

theorem witness_DecodedFrameIsEncoded : decodeFrame cfg (frameG ++ [0xA8]) =
    .packet { flag := 0xA8, seq := 1, ack := 0, payload := [0x68, 0x69] } 11 := by decide

/-- Each constructor, at the ends of its operands' ranges. -/
theorem witness_DecodeOfEncodeIsTheInstruction : cfg.maxp ≤ 65535 ∧
    (Instr.data 0xFFFF 0 [1, 2, 3, 4]).WellFormed cfg ∧ (Instr.ack 0 0xFFFF []).WellFormed cfg ∧
    (Instr.fin 0 0 [1, 2, 3, 4]).WellFormed cfg ∧ (Instr.flag11 1 2 []).WellFormed cfg ∧
    (Instr.init 0xFFFFFFFF 0 15).WellFormed cfg ∧ Instr.reset.WellFormed cfg ∧
    (Instr.send 0x7FFFFFFF).WellFormed cfg ∧ (Instr.recv 0x7FFFFFFF).WellFormed cfg ∧
    (Instr.close 0xFFFFFFFF).WellFormed cfg ∧ (Instr.wait 0).WellFormed cfg ∧ Instr.isclosed.WellFormed cfg ∧
    Instr.setclosed.WellFormed cfg := by decide

theorem witness_ChecksumSeesOneByte : (0x68 : Byte) ≠ 0xE8 := by decide

/-- The flag byte and the last payload byte of G. -/
theorem witness_OneDamagedByteIsInvalid : cfg.maxp ≤ 65535 ∧ tagOf 0xA8 = cfg.tag ∧
    [(0x68 : Byte), 0x69].length ≤ cfg.maxp ∧
    (0xA9 : Byte) ≠ byteAt (encodeFrame 0xA8 1 0 [0x68, 0x69]) 0 ∧
    8 < 7 + [(0x68 : Byte), 0x69].length ∧ (0xE9 : Byte) ≠ byteAt (encodeFrame 0xA8 1 0 [0x68, 0x69]) 8 := by decide

/-- Nothing and everything consumed. -/
theorem witness_RxbufOperations : 0 ≤ (holding frameG fresh).rx.fill ∧ 11 ≤ (holding frameG fresh).rx.fill := by decide

theorem witness_NextFrameTakesOneFrame :
    decodeFrame cfg (holding (frameG.take 10) fresh).rx.bytes = .needMore ∧
    decodeFrame cfg (holding (frameBad ++ [0]) fresh).rx.bytes = .invalid .badTag ∧
    decodeFrame cfg (holding frameFin fresh).rx.bytes =
      .packet { flag := 0xAA, seq := 0, ack := 0, payload := [] } 9 := by decide

/-- The third answer fills `RXBUF`. -/
theorem witness_RxreadByAnswer :
    (script [.err] [] fresh).readAnswer 13 = .err ∧ (script [.bytes []] [] fresh).readAnswer 13 = .bytes [] ∧
    (script [.bytes [7]] [] (nearlyFull fresh)).readAnswer 1 = .bytes (7 :: []) ∧
    ([] : List Byte).length + 1 ≤ (nearlyFull fresh).cfg.rxcap - (nearlyFull fresh).rx.fill := by decide

theorem witness_ReadErrorEndsTheCommand :
    (script [.err] [] fresh).readAnswer ((script [.err] [] fresh).cfg.rxcap - (script [.err] [] fresh).rx.fill) = .err := rfl

theorem witness_InitCreatesTheConnection : (State.resetWith cfg).op = .idle ∧ 15 < 2 ^ (State.resetWith cfg).cfg.ctxw := by
  decide

/-- For RESET, ISCLOSED, SETCLOSED, CLOSE and WAIT. -/
theorem witness_idle_initialised : fresh.op = .idle ∧ fresh.inited = true := ⟨rfl, rfl⟩

/-- For SEND and RECV, at the end of the count's range; on an open and on a closed connection. -/
theorem witness_SendIsIssued : fresh.op = .idle ∧ fresh.inited = true ∧ (0x7FFFFFFF : Word).toNat < 2 ^ 31 ∧
    fresh.conn.closed = false ∧ fresh.setClosed.conn.closed = true := by decide

/-- The four ways RECV's entry ends: a full output, `ERR_FINAL`, what was drained, the channel loop. -/
theorem witness_RecvIsIssued :
    let s := { fresh with conn := { fresh.conn with win := [slot [0x47, 0x48], slot [], slot [], slot []] } }
    nextWith (issueAndRun 2 (.recv 2) s.setClosed) (fun t => t.result == 2 && t.op == .idle) = true ∧
    nextWith (issueAndRun 1 (.recv 1) fresh.setClosed) (fun t => t.result == -3 && t.op == .idle) = true ∧
    nextWith (issueAndRun 2 (.recv 3) s.setClosed) (fun t => t.result == 2 && t.op == .idle) = true ∧
    nextWith (issueAndRun 2 (.recv 3) s) (fun t => t.work.outcnt == 2 && t.phase == .recvWait) = true := by decide

/-- More data than the window holds, exactly one packet, and none. -/
theorem witness_RoundBeginsOrEnds :
    let s := fun n => { place .send .sendRound fresh with work := { fresh.work with remain := n } }
    (s 17).op = .send ∧ (s 17).phase = .sendRound ∧ (s 17).cfg.Legal ∧ 0 < (s 17).work.remain ∧
    0 < (s 4).work.remain ∧ (s 0).work.remain = 0 := by decide

/-- The last slot of a burst, whose bit is clear; either answer to its write. -/
theorem witness_BurstWritesOneSlot :
    let s := { place .send (.sendBurst 3) fresh with work := { fresh.work with burstI := 4, acked := 0b111, remain := 16 } }
    s.op = .send ∧ s.phase = .sendBurst 3 ∧ 3 < s.work.burstI ∧ isAcked s.work.acked 3 = false ∧
    (script [] [.ok] s).writeAnswer = .ok ∧ (script [] [.err] s).writeAnswer = .err := by decide

/-- Slots 1 and 3 are acknowledged: two writes. -/
theorem witness_BurstWritesExactlyTheUnacknowledged :
    let s := script [] [.ok, .ok, .err]
      { place .send (.sendBurst 0) fresh with work := { fresh.work with burstI := 4, acked := 0b1010, remain := 16 } }
    s.op = .send ∧ s.phase = .sendBurst 0 ∧
    s.chan.writes = List.replicate (s.unackedFrames 0 s.work.burstI).length .ok ++ [.err] := by decide

/-- The whole burst acknowledged; a closed connection; below the limit and at it; and a slot that is not acknowledged. -/
theorem witness_WaitForAckIsLeft :
    let s := { place .send .sendWait fresh with work := { fresh.work with burstI := 2, acked := 0b11, retry := 2 } }
    s.op = .send ∧ s.phase = .sendWait ∧ s.work.burstI ≤ 32 ∧
    (∀ j < s.work.burstI, isAcked s.work.acked j = true) ∧ s.setClosed.conn.closed = true ∧
    ¬ s.conn.maxRetrans ≤ s.work.retry ∧ s.conn.maxRetrans ≤ (3 : Word) ∧
    isAcked (0b01 : Word) 1 = false ∧ s.conn.closed = false := by decide

theorem witness_AdvanceSlidesTheWindow : (place .send .sendAdvance fresh).op = .send ∧
    (place .send .sendAdvance fresh).phase = .sendAdvance := ⟨rfl, rfl⟩

/-- For the ACK, data and FIN frames in SEND: a burst of `W` slots. -/
theorem witness_frames_in_send : (sending 4 0 0xFFFE).op = .send ∧ (sending 4 0 0xFFFE).phase = .sendPass ∧
    (sending 4 0 0xFFFE).work.burstI ≤ 32 ∧ (sending 4 0 0xFFFE).writeAnswer = .ok ∧
    (script [] [.err] (sending 4 0 0xFFFE)).writeAnswer = .err := by decide

/-- An advance by two packets, after which SEND goes on; and the end of a SEND of 9 bytes after its third. -/
theorem witness_SendCountsThePacketsAdvanced :
    let s := { place .send .sendAdvance fresh with work := { fresh.work with len0 := 9, remain := 9, acked := 0b11 } }
    let e := { place .send .sendDone fresh with
      conn := { fresh.conn with seq := 3 }, work := { fresh.work with len0 := 9, remain := 0 } }
    s.op = .send ∧ s.phase ≠ .sendEntry ∧ Advanced 0 0 s ∧
    nextWith (step s) (fun t => t.conn.seq == 2 && t.work.remain == 1 && t.op == .send) = true ∧
    e.op = .send ∧ Advanced 0 3 e ∧ nextWith (step e) (fun t => t.result == 9 && t.op == .idle) = true := by decide

/-- Two packets, three rounds, two reads a round. -/
theorem witness_SendAgainstASilentChannel :
    let s := script (silent (3 * 2) [.err]) (List.replicate (3 * 2) .ok ++ [.err]) fresh
    s.cfg.Legal ∧ s.op = .idle ∧ s.inited = true ∧ s.conn.closed = false ∧ 0 < (5 : Word).toNat ∧ (5 : Word).toNat < 2 ^ 31 ∧
    3 = max 1 s.conn.maxRetrans.toNat ∧ s.chan.reads = silent (3 * s.patience) [.err] ∧
    s.chan.writes = List.replicate (3 * burstCount s.cfg (5 : Word).toNat) .ok ++ [.err] ∧
    nextWith (exec (.send 5) s) (fun _ => true) = true := by decide

theorem witness_SendOfOnePacketCompletes :
    let s := script [.bytes (encodeFrame (flagAck cfg) 9 0 []), .err] [.ok, .err] fresh
    s.cfg.Legal ∧ s.op = .idle ∧ s.inited = true ∧ s.conn.closed = false ∧ 1 ≤ s.conn.maxRetrans.toNat ∧
    0 < (4 : Word).toNat ∧ (4 : Word).toNat ≤ s.cfg.maxp ∧
    s.chan.reads = .bytes (encodeFrame (flagAck s.cfg) 9 s.conn.seq []) :: [.err] ∧ s.chan.writes = .ok :: [.err] ∧
    nextWith (exec (.send 4) s) (fun _ => true) = true := by decide

/-- A window with data in it and a partial consumption to make. -/
theorem witness_DrainDeliversInOrder :
    let s := { receiving 6 fresh with conn :=
      { fresh.conn with win := [slot [0x41, 0x42, 0x43, 0x44], slot [0x45, 0x46, 0x47, 0x48], slot [], slot []] } }
    Window s ∧ s.work.outcnt ≤ s.work.cap ∧ (drain s).work.outcnt = 6 ∧ (drain s).pending = [0x47, 0x48] := by decide

/-- For the frames in RECV: the longest payload, either answer to the reply. -/
theorem witness_frames_in_recv : Window (receiving 8 fresh) ∧ (receiving 8 fresh).op = .recv ∧
    (receiving 8 fresh).phase = .recvPass ∧ [(1 : Byte), 2, 3, 4].length ≤ (receiving 8 fresh).cfg.maxp ∧
    (receiving 8 fresh).work.outcnt < (receiving 8 fresh).work.cap ∧ (receiving 8 fresh).writeAnswer = .ok ∧
    (script [] [.err] (receiving 8 fresh)).writeAnswer = .err := by decide

/-- V-W3 and V-W4: the first frame is delivered, or buffered; RECV goes on, and the second one answers a next state. -/
theorem witness_DuplicateDataIsDeliveredOnce :
    nextWith (handleFrame (.data 0 0 [0x41, 0x42]) (receiving 8 fresh)) (fun t => t.op == .recv && t.work.outcnt == 2 &&
      nextWith (handleFrame (.data 0 0 [0x41, 0x42]) (script [] [.ok] t)) fun u => u.work.outcnt == 2) = true ∧
    nextWith (handleFrame (.data 1 0 [0x43, 0x44]) (receiving 8 fresh)) (fun t => t.op == .recv && t.work.outcnt == 0 &&
      nextWith (handleFrame (.data 1 0 [0x58, 0x59]) (script [] [.ok] t)) fun u =>
        (u.conn.slot 1).bytes == [0x43, 0x44]) = true := by decide

/-- Both clauses: the window has more than one slot, and its head and last slots are empty. -/
theorem witness_WindowBoundary : 1 < (receiving 8 fresh).cfg.w ∧
    ((receiving 8 fresh).conn.slot (receiving 8 fresh).conn.wnd).len = 0 ∧
    ((receiving 8 fresh).conn.slot (((receiving 8 fresh).conn.wnd + (4 - 1)) % 4)).len = 0 ∧
    [(1 : Byte)] ≠ [] := by decide

/-- Three packets, the last first. -/
theorem witness_AnyOrderOfArrivalIsDeliveredInOrder :
    let s := script [] [.ok, .ok, .ok, .err] (receiving 8 fresh)
    Window s ∧ (∀ v ∈ s.conn.win, v.len = 0) ∧ [[(1 : Byte)], [2, 3], [4]].length ≤ s.cfg.w ∧
    [2, 0, 1].Perm (List.range [[(1 : Byte)], [2, 3], [4]].length) ∧
    s.work.outcnt + [[(1 : Byte)], [2, 3], [4]].flatten.length < s.work.cap ∧
    s.chan.writes = List.replicate [[(1 : Byte)], [2, 3], [4]].length .ok ++ [.err] := by decide

theorem witness_RecvAgainstASilentChannel :
    let s := script (silent 2 [.err]) [] fresh
    s.op = .idle ∧ s.inited = true ∧ (8 : Word).toNat < 2 ^ 31 ∧ s.chan.reads = silent s.patience [.err] ∧
    s.conn.closed = false ∧
    nextWith (exec (.recv 8) s) (fun t => decide ((drain t).work.outcnt < (8 : Word).toNat)) = true := by decide

/-- An attempt left, the last one; and none left. -/
theorem witness_CloseSendsItsFin :
    let s := fun (n : Word) => script [] [.ok] { place .close .closeAttempt fresh with
      args := { fresh.args with arg0 := 3 }, work := { fresh.work with attempt := n } }
    (s 2).op = .close ∧ (s 2).phase = .closeAttempt ∧ (s 2).work.attempt.toNat < (s 2).args.arg0.toNat ∧
    (s 3).args.arg0.toNat ≤ (s 3).work.attempt.toNat ∧ (s 2).writeAnswer = .ok := by decide

theorem witness_FramesInClose : (place .close .closePass fresh).op = .close ∧
    (place .close .closePass fresh).phase = .closePass := ⟨rfl, rfl⟩

theorem witness_CloseHandshakeCompletes :
    let s := script [.bytes (encodeFrame (flagFin cfg) 9 5 []), .err] [.ok, .err] fresh
    s.cfg.Legal ∧ s.op = .idle ∧ s.inited = true ∧ s.conn.closed = false ∧ 0 < (1 : Word).toNat ∧
    s.chan.reads = .bytes (encodeFrame (flagFin s.cfg) 9 5 []) :: [.err] ∧ s.chan.writes = .ok :: [.err] ∧
    nextWith (exec (.close 1) s) (fun _ => true) = true := by decide

theorem witness_CloseAgainstASilentChannel :
    let s := script (silent 4 [.err]) [.ok, .ok, .err] fresh
    s.op = .idle ∧ s.inited = true ∧ s.conn.closed = false ∧
    s.chan.reads = silent ((2 : Word).toNat * s.patience) [.err] ∧
    s.chan.writes = List.replicate (2 : Word).toNat .ok ++ [.err] ∧
    nextWith (exec (.close 2) s) (fun _ => true) = true := by decide

/-- Each class of frame; either answer to the reply. -/
theorem witness_FramesInWait : [Instr.data 0 0 [1], .ack 0 0 [], .fin 0 0 [], .flag11 0 0 []].all Instr.isFrame = true ∧
    (place .wait .waitPass fresh).op = .wait ∧ (place .wait .waitPass fresh).phase = .waitPass ∧
    (script [] [.ok] fresh).writeAnswer = .ok ∧ (script [] [.err] fresh).writeAnswer = .err := by decide

theorem witness_WaitAlwaysEnds : (place .wait .waitRead fresh).op = .wait ∧
    (place .wait .waitRead fresh).phase = .waitRead := ⟨rfl, rfl⟩

theorem witness_Flag11IsItsClass : fresh.cfg.flag11 = .ack ∧ { fresh with cfg := { cfg with flag11 := .fin } }.cfg.flag11 = .fin :=
  ⟨rfl, rfl⟩

/-- SEND of 9 bytes at the head of its first round. -/
def inRound : State :=
  { place .send .sendRound fresh with work := { fresh.work with len0 := 9, remain := 9 } }

/-- A busy state inside every invariant. -/
theorem witness_invariants : Window inRound ∧ Control inRound ∧ SendWindow inRound := by decide

theorem witness_invariants_buffers : Canonical inRound ∧ Buffered inRound ∧ OutBound inRound := by decide

/-- It is busy, and its step answers a next state. -/
theorem witness_invariants_step : inRound.op ≠ .idle ∧
    nextWith (step inRound) (fun t => t.op == .send && t.phase == .sendBurst 0) = true := by decide

/-- At a read, with a whole frame but one byte in `RXBUF`. -/
theorem witness_StepKeepsRxbufOpen :
    Buffered (place .send .sendRead (holding (frameG.take 10) fresh)) ∧
    Buffered (place .recv .recvWait (holding (frameG.take 10) fresh)) ∧
    Buffered (place .wait .waitPoll (holding (frameG.take 10) fresh)) := by decide

/-- At a write, with the longest frame in `TXBUF`. -/
theorem witness_StepKeepsRxbufOpen_write :
    Buffered (place .send (.sendWrite 0) (fresh.fillTx (encodeFrame 0xA8 0 0 [1, 2, 3, 4]))) := by decide

/-- A busy core at a read, at a write, and at neither (AtMostOneTransactionPerStep, BoundedWorkBetweenTransactions). -/
theorem witness_transactions : Phase.recvWait.reads = true ∧ Phase.recvReply.writes = true ∧
    Phase.sendRound.reads = false ∧ Phase.sendRound.writes = false ∧
    nextWith (step (script [.bytes []] [] (place .recv .recvWait fresh))) (fun t => t.chan.trace.length == 1) = true ∧
    nextWith (step (place .recv .recvReply (receiving 8 fresh))) (fun t => t.chan.trace.length == 1) = true := by decide

/-- One state that meets every hypothesis of BoundedWorkBetweenTransactions: SEND at the write of its first slot, and at its read. -/
theorem witness_BoundedWorkBetweenTransactions :
    let s := { inRound with work := { inRound.work with burstI := 3 } }
    (Control (place .send (.sendWrite 0) s) ∧ SendWindow (place .send (.sendWrite 0) s) ∧
      (place .send (.sendWrite 0) s).op ≠ .idle ∧ (place .send (.sendWrite 0) s).phase.writes = true) ∧
    (Control (place .send .sendRead s) ∧ SendWindow (place .send .sendRead s) ∧
      (place .send .sendRead s).op ≠ .idle ∧ (place .send .sendRead s).phase.reads = true) := by decide

/-- The step of R13 that reads V-W3's frame: the read, the decode, the store and the drain, up to the ACK reply's write. -/
theorem test_transaction_step : nextWith
    (transactionStep (script [.bytes [0xA8, 0x00, 0x00, 0x00, 0x00, 0x00, 0x02, 0x41, 0x42, 0xA8, 0x63]] []
      { place .recv .recvWait fresh with work := { fresh.work with cap := 8 } }))
    (fun t => t.phase == .recvReply && t.work.outcnt == 2 && t.conn.ack == 1 &&
      t.txBytes == [0xA9, 0x00, 0x00, 0x00, 0x00, 0x00, 0x00, 0xA4, 0x02]) = true := by decide

/-- A drain turn that moves `ACK` and `WND` (AckAndWndMoveTogether). -/
theorem witness_AckAndWndMoveTogether : nextWith
    (step (place .recv .recvDrain { receiving 6 fresh with conn :=
      { fresh.conn with win := [slot [0x41], slot [], slot [], slot []] } }))
    (fun t => t.conn.ack == 1 && t.conn.wnd == 1 && t.work.outcnt == 1) = true := by decide

/-- `INITED` is set by INIT (OnlyTheNamedWriters). -/
theorem witness_OnlyTheNamedWriters_inited :
    nextWith (step { State.resetWith cfg with host := [{ hostCmd with launch := { hostCmd.launch with cmd := 0b000 } }] })
      (fun t => t.inited) = true ∧ (State.resetWith cfg).inited = false := by decide

/-- The ways `CLOSED` changes (OnlyTheNamedWriters): cleared by RESET, set by a FIN frame and by SETCLOSED. -/
theorem witness_OnlyTheNamedWriters :
    nextWith (step { fresh.setClosed with host := [{ hostCmd with launch := { hostCmd.launch with cmd := 0b001 } }] })
      (fun t => !t.conn.closed) = true ∧
    nextWith (step (place .close .closePass (holding frameFin fresh))) (fun t => t.conn.closed) = true ∧
    nextWith (step (script [] [.ok] (place .recv .recvEcho fresh))) (fun t => t.conn.closed) = true ∧
    nextWith (step (place .send .sendPass (holding frameFin fresh))) (fun t => t.phase == .sendEcho) = true ∧
    nextWith (step { fresh with host := [{ hostCmd with launch := { hostCmd.launch with cmd := 0b111 } }] })
      (fun t => t.conn.closed) = true := by decide

/-- A step that writes `RESULT`, from a busy core and from an idle one. -/
theorem witness_ResultIsWrittenAtTheEnd :
    nextWith (step (place .close .closeExhausted { fresh with result := 9 })) (fun t => t.result != 9) = true ∧
    nextWith (step { fresh.setClosed with host := [{ hostCmd with launch := { hostCmd.launch with cmd := 0b010 } }] })
      (fun t => t.result != fresh.setClosed.result) = true := by decide

/-- The state in which RECV ends on a full output, and one step before it. -/
theorem witness_StepKeepsOutputInBounds : OutBound (receiving 2 fresh) ∧
    nextWith (handleFrame (.data 0 0 [0x41, 0x42]) (receiving 2 fresh)) (fun t =>
      t.op == .idle && t.work.outcnt == 2 && t.work.cap == 2 && decide (OutBound t)) = true := by decide

/-- A busy step that writes `OUT`: a turn of the drain. -/
theorem witness_HostSpacesAreKept : (place .recv .recvDrain fresh).op ≠ .idle ∧
    nextWith (step { place .recv .recvDrain fresh with
        work := { fresh.work with cap := 8 }
        conn := { fresh.conn with win := [slot [0x41, 0x42], slot [], slot [], slot []] } })
      (fun t => t.out == [(0, 0x41), (1, 0x42)] && t.work.outcnt == 2) = true := by decide

end Sys2Proof.Tests
end

section
/-! PROOFS. A frame's meaning by its class (R12, R66, R94). -/

namespace Sys2Proof.Machine

/-! ### The meaning of a frame -/

/-- A frame of class ACK always answers a next state. -/
theorem ackMeaning_next (ack : Seq) (s : State) : ∃ t, ackMeaning ack s = .next t := by
  unfold ackMeaning
  split <;> exact ⟨_, rfl⟩

/-- A frame of class FIN always answers a next state. -/
theorem finMeaning_next (seq ack : Seq) (s : State) : ∃ t, finMeaning seq ack s = .next t := by
  unfold finMeaning
  split <;> exact ⟨_, rfl⟩

theorem exec_flag11_ack {s : State} (h : s.cfg.flag11 = .ack) (q a : Seq) (pl : List Byte) :
    exec (.flag11 q a pl) s = ackMeaning a s := by
  simp only [exec, execFlag11, h]

theorem exec_flag11_fin {s : State} (h : s.cfg.flag11 = .fin) (q a : Seq) (pl : List Byte) :
    exec (.flag11 q a pl) s = finMeaning q a s := by
  simp only [exec, execFlag11, h]

/-- A decoded packet is handled as one of the three classes (R66, R94). -/
theorem exec_packet_cases (p : Packet) (s : State) :
    exec p.instr s = dataMeaning p.seq p.payload s ∨ exec p.instr s = ackMeaning p.ack s ∨
      exec p.instr s = finMeaning p.seq p.ack s := by
  obtain ⟨-, hi⟩ | ⟨-, hi⟩ | ⟨-, hi⟩ | ⟨-, hi⟩ := Packet.instr_cases p <;> rw [hi]
  · exact .inl rfl
  · exact .inr (.inl rfl)
  · exact .inr (.inr rfl)
  · cases h : s.cfg.flag11 with
    | ack => exact .inr (.inl (exec_flag11_ack h ..))
    | fin => exact .inr (.inr (exec_flag11_fin h ..))

/-- Settles O47: FLAG11's meaning is the named class's, and neither class ever stops. -/
theorem flag11IsItsClass : Obligations.Flag11IsItsClass := by
  intro s q a pl
  refine ⟨fun h => exec_flag11_ack h q a pl, fun h => exec_flag11_fin h q a pl, ?_⟩
  cases h : s.cfg.flag11 with
  | ack => rw [exec_flag11_ack h]; exact ackMeaning_next a s
  | fin => rw [exec_flag11_fin h]; exact finMeaning_next q a s

end Sys2Proof.Machine
end

section
/-! PROOFS. What the meaning of an instruction leaves alone: the channel (R13), and the frame of one turn of the drain (R130). -/

namespace Sys2Proof.Machine

/-! ### Operations that make no transaction -/

@[simp] theorem runSend_chan (s : State) : (runSend s).chan = s.chan := by unfold runSend; split <;> rfl

@[simp] theorem runClose_chan (s : State) : (runClose s).chan = s.chan := by unfold runClose; split <;> rfl

@[simp] theorem recvDataArm_chan (seq : Seq) (pl : List Byte) (s : State) : (recvDataArm seq pl s).chan = s.chan := by
  simp only [recvDataArm]; split <;> rfl

/-- A turn of the drain moves only `OUT`, `OUTCNT`, `ACK`, `WND` and `WIN` (R130). -/
theorem drainTurn_frame {s t : State} (h : drainTurn s = some t) :
    t = { s with
      out := t.out
      work := { s.work with outcnt := t.work.outcnt }
      conn := { s.conn with ack := t.conn.ack, wnd := t.conn.wnd, win := t.conn.win } } := by
  obtain ⟨hn, -⟩ | ⟨-, -, -, hs⟩ | ⟨-, -, hs⟩ := drainTurn_cases s
  · rw [hn] at h; cases h
  · rw [hs] at h; cases h; rfl
  · rw [hs] at h; cases h; rfl

/-! ### The meaning of an instruction makes no transaction -/

/-- What passes the launch test is the command's own outcome. -/
theorem guardLaunch_next {b : Bool} {s t : State} {k : Outcome} (h : guardLaunch b s k = .next t) : k = .next t := by
  obtain ⟨-, -, e⟩ | ⟨-, e⟩ | ⟨-, -, -, e⟩ := guardLaunch_cases b s k <;> rw [e] at h
  · exact h
  · cases h
  · cases h

theorem dataMeaning_chan {seq : Seq} {pl : List Byte} {s t : State} (h : dataMeaning seq pl s = .next t) :
    t.chan = s.chan := by
  unfold dataMeaning at h
  split at h
  case h_2 => split at h <;> cases h; exact recvDataArm_chan ..
  all_goals cases h; rfl

theorem ackMeaning_chan {ack : Seq} {s t : State} (h : ackMeaning ack s = .next t) : t.chan = s.chan := by
  unfold ackMeaning at h
  split at h <;> cases h <;> rfl

theorem finMeaning_chan {seq ack : Seq} {s t : State} (h : finMeaning seq ack s = .next t) : t.chan = s.chan := by
  unfold finMeaning at h
  split at h <;> cases h <;> rfl

/-- No instruction's meaning makes a transaction: a command is issued without one, and a frame that is answered leaves the core
before its write. -/
theorem exec_chan {i : Instr} {s t : State} (h : exec i s = .next t) : t.chan = s.chan := by
  cases i with
  | data => exact dataMeaning_chan h
  | ack => exact ackMeaning_chan h
  | fin => exact finMeaning_chan h
  | flag11 q a pl =>
    cases hf : s.cfg.flag11 with
    | ack => exact ackMeaning_chan (exec_flag11_ack hf q a pl ▸ h)
    | fin => exact finMeaning_chan (exec_flag11_fin hf q a pl ▸ h)
  | init => cases guardLaunch_next h; rfl
  | reset => cases guardLaunch_next h; rfl
  | send =>
    have hk := guardLaunch_next h
    split at hk <;> cases hk
    simp
  | recv =>
    have hk := guardLaunch_next h
    split at hk <;> cases hk
    rfl
  | close => cases guardLaunch_next h; simp
  | wait => cases guardLaunch_next h; rfl
  | isclosed => cases guardLaunch_next h; rfl
  | setclosed => cases guardLaunch_next h; rfl

theorem stepIdle_chan {s t : State} (h : stepIdle s = .next t) : t.chan = s.chan := by
  unfold stepIdle at h
  split at h
  · cases h; rfl
  · exact (exec_chan h :)

end Sys2Proof.Machine
end

section
/-! PROOFS. The arithmetic of SEND's window: `BURST_I`, and the shifts and marks of `ACKED` (R114 to R121). -/

namespace Sys2Proof.Machine

/-! ### The window's arithmetic -/

theorem burstCount_pos {c : Config} {r : Nat} (hc : c.Legal) (hr : 0 < r) : 0 < burstCount c r := by
  obtain ⟨hw, hm, -, -⟩ := hc
  have hq : 0 < (r + c.maxp - 1) / c.maxp := Nat.div_pos (by omega) hm
  have hw : 0 < c.w := by
    simp only [List.mem_cons, List.not_mem_nil, or_false] at hw
    omega
  exact Nat.lt_min.mpr ⟨hw, hq⟩

theorem burstCount_le_32 {c : Config} (hc : c.Legal) (r : Nat) : burstCount c r ≤ 32 := by
  obtain ⟨hw, -⟩ := hc
  have hle : burstCount c r ≤ c.w := Nat.min_le_left _ _
  simp only [List.mem_cons, List.not_mem_nil, or_false] at hw
  omega

/-- Advancing by `k` packets shortens the next burst by at most `k` (R121). -/
theorem burstCount_le_add_advance {c : Config} (hc : c.Legal) (r k : Nat) :
    burstCount c r ≤ k + burstCount c (r - k * c.maxp) := by
  obtain ⟨-, hm, -, -⟩ := hc
  have hq : (r + c.maxp - 1) / c.maxp ≤ k + (r - k * c.maxp + c.maxp - 1) / c.maxp := by
    calc (r + c.maxp - 1) / c.maxp ≤ (r - k * c.maxp + c.maxp - 1 + k * c.maxp) / c.maxp :=
          Nat.div_le_div_right (by omega)
      _ = k + (r - k * c.maxp + c.maxp - 1) / c.maxp := by rw [Nat.add_mul_div_right _ _ hm, Nat.add_comm]
  unfold burstCount
  omega

/-- A bitmask shifted past its highest set bit is 0. -/
theorem ofNat_ushiftRight_eq_zero {x b : Nat} (h : x < 2 ^ b) : BitVec.ofNat 32 x >>> b = 0 := by
  apply BitVec.eq_of_toNat_eq
  have hx : x % 2 ^ 32 < 2 ^ b := Nat.lt_of_le_of_lt (Nat.mod_le _ _) h
  simpa [BitVec.toNat_ushiftRight, Nat.shiftRight_eq_div_pow] using Nat.div_eq_of_lt hx

theorem markOne_ushiftRight {a : Word} {b : Nat} (h : a >>> b = 0) (d : Nat) : markOne a b d >>> b = 0 := by
  unfold markOne
  split
  case isTrue hd =>
    rw [BitVec.ushiftRight_or_distrib, h, ofNat_ushiftRight_eq_zero (Nat.pow_lt_pow_right (by omega) hd)]
    rfl
  case isFalse => exact h

theorem markBelow_ushiftRight {a : Word} {b : Nat} (h : a >>> b = 0) (d : Nat) : markBelow a b d >>> b = 0 := by
  unfold markBelow
  split
  case isTrue hd =>
    have hlt : 2 ^ d - 1 < 2 ^ b :=
      Nat.lt_of_lt_of_le (Nat.sub_lt (Nat.two_pow_pos d) Nat.one_pos) (Nat.pow_le_pow_right (by omega) hd.2)
    rw [BitVec.ushiftRight_or_distrib, h, lowBits, ofNat_ushiftRight_eq_zero hlt]
    rfl
  case isFalse => exact h

/-- A longer shift of a bitmask that is already shifted out is 0. -/
theorem ushiftRight_eq_zero_of_le {a : Word} {b n : Nat} (h : a >>> b = 0) (hle : b ≤ n) : a >>> n = 0 := by
  obtain ⟨d, rfl⟩ := Nat.exists_eq_add_of_le hle
  rw [BitVec.shiftRight_add, h]
  simp

/-- After the advance the front slot is unacknowledged, when bit `n` was clear (R121, R123). -/
theorem isAcked_zero_of_contiguous {n : Nat} {a : Word} (h : a.getLsbD n = false) :
    isAcked (a >>> contiguous n a) 0 = false := by
  induction n generalizing a with
  | zero => simpa [contiguous, isAcked] using h
  | succ n ih =>
    unfold contiguous
    split
    case isTrue =>
      rw [Nat.add_comm, BitVec.shiftRight_add]
      exact ih (by rw [BitVec.getLsbD_ushiftRight, Nat.add_comm]; exact h)
    case isFalse h0 => simpa [isAcked] using h0

end Sys2Proof.Machine
end

section
/-! PROOFS. What a step of a busy core keeps, and the work left before its next transaction (R13, R123). -/

namespace Sys2Proof.Machine

/-! ### What a step of a busy core keeps -/

/-- The command has ended, or the core is at another place of the same command's rule (R21, R22). -/
def InCommand (s t : State) : Prop :=
  (t.op = .idle ∧ t.phase = .none) ∨ (t.op = s.op ∧ t.phase.op = s.op ∧ t.inited = s.inited)

theorem InCommand.control {s t : State} (h : InCommand s t) (hs : Control s) (hb : s.op ≠ .idle) : Control t := by
  obtain ⟨ho, hp⟩ | ⟨ho, hp, hi⟩ := h
  · exact .inl ⟨ho, hp⟩
  · obtain ⟨hid, -⟩ | ⟨-, -, hinit⟩ := hs
    · exact absurd hid hb
    · exact .inr ⟨ho ▸ hb, hp.trans ho.symm, ho ▸ hi ▸ hinit⟩

/-- What one step of a busy core does, whatever its label: the channel it leaves is `ch`, it stays in its command or ends it, and
SEND's window keeps its invariant (R123). -/
structure Steps (ch : Chan) (s t : State) : Prop where
  chan : t.chan = ch
  inCommand : InCommand s t
  window : SendWindow s → SendWindow t

/-- The registers a round of SEND is measured by, and the parameters, are the same in both states. -/
def SameRound (s t : State) : Prop :=
  t.cfg = s.cfg ∧ t.work.len0 = s.work.len0 ∧ t.work.remain = s.work.remain

theorem Phase.op_of_inRound {p : Phase} (h : p.inRound = true) : p.op = .send := by
  cases p <;> cases h <;> rfl

theorem Phase.inRound_of_inBurst {p : Phase} (h : p.inBurst = true) : p.inRound = true := by
  cases p <;> cases h <;> rfl

/-- Outside a round the window's invariant asks no more than `REMAIN` <= `LEN0`. -/
theorem sendWindow_of_outside {s t : State} (h : SendWindow s) (hr : SameRound s t) (hp : t.phase ≠ .sendRound)
    (hq : t.phase.inRound = false) : SendWindow t := by
  obtain ⟨hl, hle, -⟩ := h
  obtain ⟨hc, h0, h1⟩ := hr
  refine ⟨hc ▸ hl, h0 ▸ h1 ▸ hle, fun e => absurd e hp, fun e => ?_, fun e => ?_⟩
  · rw [hq] at e; cases e
  · rw [Phase.inRound_of_inBurst e] at hq; cases hq

/-- A command that ends after `u` keeps the window's invariant. -/
theorem Steps.ends {ch : Chan} {s u : State} {v : Word} (hc : u.chan = ch := by rfl)
    (hr : SameRound s u := by exact ⟨rfl, rfl, rfl⟩) : Steps ch s (u.endWith v) :=
  ⟨hc, .inl ⟨rfl, rfl⟩, fun h => sendWindow_of_outside h hr nofun rfl⟩

/-- A step of another command than SEND has no part in the window. The side conditions say what the step leaves alone; where the
next state is written out they hold by computation. -/
theorem Steps.elsewhere {ch : Chan} {s t : State} {o : Op} (ho : s.op = o) (hn : o ≠ .send := by nofun)
    (hp : t.phase.op = o := by rfl) (hop : t.op = s.op := by rfl) (hi : t.inited = s.inited := by rfl)
    (hc : t.chan = ch := by rfl) (hr : SameRound s t := by exact ⟨rfl, rfl, rfl⟩) : Steps ch s t := by
  refine ⟨hc, .inr ⟨hop, hp.trans ho.symm, hi⟩, fun h => sendWindow_of_outside h hr (fun e => hn ?_) ?_⟩
  · rw [← hp, e]; rfl
  · by_contra hq
    exact hn (hp ▸ Phase.op_of_inRound (by simpa using hq))

/-- Inside a round but past its burst, a step keeps the window when its marks stay below `BURST_I` (R116, R123). -/
theorem sendWindow_of_waiting {s t : State} (h : SendWindow s) (hs : s.phase.inRound = true) (hr : SameRound s t)
    (hb : t.work.burstI = s.work.burstI)
    (ha : s.work.acked >>> s.work.burstI = 0 → t.work.acked >>> s.work.burstI = 0)
    (hp : t.phase ≠ .sendRound) (hq : t.phase.inBurst = false) : SendWindow t := by
  obtain ⟨hl, hle, -, hin, -⟩ := h
  obtain ⟨hrem, hbi, hack⟩ := hin hs
  obtain ⟨hc, h0, h1⟩ := hr
  refine ⟨hc ▸ hl, h0 ▸ h1 ▸ hle, fun e => absurd e hp, fun _ => ⟨h1 ▸ hrem, ?_, hb ▸ ha hack⟩, fun e => ?_⟩
  · rw [hb, hc, h1]; exact hbi
  · rw [hq] at e; cases e

/-! ### The work left before the next transaction -/

/-- The occupied slots of the window. -/
def State.occupied (s : State) : Nat := s.conn.win.countP fun v => v.len != 0

/-- A bound on the turns of the drain that are left (R130): each full turn empties a slot, a partial turn is the last one. -/
def State.drainLeft (s : State) : Nat := if s.work.outcnt < s.work.cap then s.occupied + 1 else 0

theorem drainLeft_le (s : State) : s.drainLeft ≤ s.conn.win.length + 1 := by
  have h : s.occupied ≤ s.conn.win.length := List.countP_le_length
  unfold State.drainLeft
  split <;> omega

/-- A slot that is not empty is one of the window's. -/
theorem slot_lt_of_len {c : Conn} {i : Nat} (h : (c.slot i).len ≠ 0) : i < c.win.length := by
  by_contra hi
  exact h (congrArg Slot.len (List.getD_eq_default _ Slot.empty (Nat.le_of_not_lt hi)))

/-- Emptying a slot leaves one occupied slot less. -/
theorem occupied_drainFull {s : State} (h : (s.conn.slot s.conn.wnd).len ≠ 0) :
    (drainFull s).occupied + 1 = s.occupied := by
  have hi := slot_lt_of_len h
  have hv : s.conn.slot s.conn.wnd = s.conn.win[s.conn.wnd] := List.getD_eq_getElem _ _ hi
  have hpos : 0 < s.occupied :=
    List.countP_pos_iff.mpr ⟨_, List.getElem_mem hi, by simpa [hv] using h⟩
  rw [hv] at h
  unfold State.occupied at hpos ⊢
  simp only [drainFull, Conn.setSlot, List.countP_set hi]
  simp [h]
  omega

/-- Every turn of the drain brings its end nearer. -/
theorem drainLeft_drainTurn {s t : State} (h : drainTurn s = some t) : t.drainLeft < s.drainLeft := by
  obtain ⟨hn, -⟩ | ⟨hc, hz, -, hs⟩ | ⟨hc, -, hs⟩ := drainTurn_cases s
  · rw [hn] at h; cases h
  · rw [hs] at h
    cases h
    have ho := occupied_drainFull hz
    rw [State.drainLeft, State.drainLeft, if_pos hc]
    split <;> omega
  · rw [hs] at h
    cases h
    rw [State.drainLeft, State.drainLeft, if_pos hc, if_neg (by simp [drainPart])]
    omega

/-- A bound on the steps from a label to the next channel transaction or the end of the command (R13); 0 where the core already
stands at one or is idle. In SEND a new burst's slot 0 is unacknowledged (R123), so its head is one step before a write, while the
later slots may all be skipped and the wait left for another round; a decode pass takes bytes off `RXBUF` with every frame. -/
def State.workLeft (s : State) : Nat :=
  match s.phase with
  | .init | .reset | .sendDone | .closeExhausted | .waitDone => 1
  | .sendEntry => 3
  | .sendRound => 2
  | .sendBurst 0 => 1
  | .sendBurst (j + 1) => s.work.burstI - (j + 1) + 5
  | .sendWait => 4
  | .sendAdvance => 3
  | .sendPass => s.rx.fill + 5
  | .recvEntry => s.conn.win.length + 3
  | .recvDrain | .recvRedrain _ => s.drainLeft + 1
  | .recvPass => s.rx.fill + s.conn.win.length + 3
  | .closeEntry => 3
  | .closeAttempt => 2
  | .closePass => s.rx.fill + 1
  | .waitEntry => 3
  | .waitRead => 2
  | .waitPass => s.rx.fill + 3
  | _ => 0

/-- The labels of DRAIN's loop (R130). -/
def State.AtDrain (s : State) : Prop := s.phase = .recvDrain ∨ ∃ q, s.phase = .recvRedrain q

theorem workLeft_of_atDrain {s : State} (h : s.AtDrain) : s.workLeft = s.drainLeft + 1 := by
  obtain e | ⟨q, e⟩ := h <;> simp only [State.workLeft, e]

theorem workLeft_le_of_atDrain {s : State} (h : s.AtDrain) : s.workLeft ≤ s.conn.win.length + 2 :=
  workLeft_of_atDrain h ▸ Nat.succ_le_succ (drainLeft_le s)

theorem workLeft_le_workBound {s : State} (h : SendWindow s) : s.workLeft ≤ s.workBound := by
  obtain ⟨hl, -, -, hin, -⟩ := h
  have hd := drainLeft_le s
  cases hp : s.phase
  case sendBurst j =>
    obtain ⟨-, hb, -⟩ := hin (by rw [hp]; rfl)
    have h32 := burstCount_le_32 hl s.work.remain
    cases j <;> simp only [State.workLeft, State.workBound, hp] <;> omega
  all_goals simp only [State.workLeft, State.workBound, hp]; omega

/-- A step without a transaction: it brings the next transaction, or the end of the command, nearer. -/
structure Quiet (s t : State) : Prop extends Steps s.chan s t where
  left : SendWindow s → t.workLeft < s.workLeft

/-- Ending a command leaves no work. -/
theorem Quiet.ends {s : State} {v : Word} (h : 0 < s.workLeft) : Quiet s (s.endWith v) :=
  ⟨Steps.ends, fun _ => h⟩

end Sys2Proof.Machine
end

section
/-! PROOFS. The channel ports, the decode pass, and SEND's steps. -/

namespace Sys2Proof.Machine

/-! ### Ports -/

/-- A write followed by `k` does in one step what `k` does after the transaction, or raises `ERR_TX` (R95). -/
theorem chanWrite_steps {k : State → State} {s : State}
    (hk : Steps (s.logWrite s.txBytes).chan s (k (s.logWrite s.txBytes))) :
    Steps (s.logWrite s.txBytes).chan s (chanWrite k s) := by
  obtain ⟨-, e⟩ | ⟨-, e⟩ := chanWrite_cases k s <;> rw [e]
  · exact hk
  · exact Steps.ends

/-- The state after a read that raised nothing: only the channel, `RXBUF` and `TICKS` have moved (R47, R99). -/
structure AfterRead (s u : State) : Prop where
  chan : u.chan = (s.logRead s.room).chan
  op : u.op = s.op
  phase : u.phase = s.phase
  inited : u.inited = s.inited
  cfg : u.cfg = s.cfg
  conn : u.conn = s.conn
  work : u.work = { s.work with ticks := u.work.ticks }

theorem AfterRead.sameRound {s u : State} (h : AfterRead s u) : SameRound s u :=
  ⟨h.cfg, by rw [h.work], by rw [h.work]⟩

/-- Another command than SEND that reads and stays at its label. -/
theorem AfterRead.elsewhere {s u : State} {o : Op} (h : AfterRead s u) (ho : s.op = o) (hp : s.phase.op = o)
    (hn : o ≠ .send := by nofun) : Steps (s.logRead s.room).chan s u :=
  Steps.elsewhere ho hn (h.phase ▸ hp) h.op h.inited h.chan h.sameRound

/-- Another command than SEND that reads and goes to another of its labels. -/
theorem AfterRead.goto_elsewhere {s u : State} {o : Op} {p : Phase} (h : AfterRead s u) (ho : s.op = o)
    (hp : p.op = o := by rfl) (hn : o ≠ .send := by nofun) : Steps (s.logRead s.room).chan s (u.goto p) :=
  Steps.elsewhere ho hn hp h.op h.inited h.chan h.sameRound

/-- RXREAD by its outcomes (R99). -/
theorem rxRead_outcomes (s : State) :
    rxRead s = (.raised, (s.logRead s.room).raise .rx) ∨
      (∃ u, AfterRead s u ∧ (rxRead s = (.tick, u) ∨ rxRead s = (.timedOut, u) ∨ rxRead s = (.got, u))) ∨
      ∃ u, rxRead s = (.tooLong, u) := by
  obtain ⟨-, e⟩ | ⟨-, e⟩ | ⟨bs, -, -, ⟨-, e⟩ | ⟨-, e⟩⟩ := rxRead_cases s
  · exact .inl e
  · refine .inr (.inl ⟨(s.logRead s.room).setTicks (s.work.ticks + 1), ⟨rfl, rfl, rfl, rfl, rfl, rfl, rfl⟩, ?_⟩)
    split at e
    · exact .inr (.inl e)
    · exact .inl e
  · exact .inr (.inl ⟨{ s.logRead s.room with rx := s.rx.append bs }, ⟨rfl, rfl, rfl, rfl, rfl, rfl, rfl⟩,
      .inr (.inr e)⟩)
  · exact .inr (.inr ⟨_, e⟩)

/-- A step answers a next state that `P` holds of, or stops because the channel broke its contract (R47). -/
def NextUnlessTooLong (P : State → Prop) (o : Outcome) : Prop :=
  o = .refused .readAnswerTooLong ∨ ∃ t, o = .next t ∧ P t

/-! ### The decode pass -/

theorem length_bytes (r : RxBuf) : r.bytes.length = r.fill := by simp [RxBuf.bytes]

/-- One turn of the decode pass makes no transaction when neither the way out of the pass nor a frame of any class does. -/
theorem stepPass_quiet {s : State} (after : ∀ r, Quiet s ({ s with rx := r }.goto s.phase.afterPass))
    (data : ∀ seq pl r, pl.length ≤ s.cfg.maxp → r.fill < s.rx.fill →
      ∃ t, dataMeaning seq pl { s with rx := r } = .next t ∧ Quiet s t)
    (ack : ∀ a r, r.fill < s.rx.fill → ∃ t, ackMeaning a { s with rx := r } = .next t ∧ Quiet s t)
    (fin : ∀ q a r, r.fill < s.rx.fill → ∃ t, finMeaning q a { s with rx := r } = .next t ∧ Quiet s t) :
    ∃ t, stepPass s = .next t ∧ Quiet s t := by
  obtain ⟨-, e⟩ | ⟨-, -, e⟩ | ⟨p, used, hd, e⟩ := stepPass_cases s <;> rw [e]
  · exact ⟨_, rfl, after s.rx⟩
  · exact ⟨_, rfl, after s.rx.discard⟩
  · obtain ⟨hpl, hu, hle⟩ := Packet.payload_le_of_decode hd
    have hfill : (s.rx.consume used).fill < s.rx.fill := by
      rw [length_bytes] at hle
      simp only [RxBuf.consume]
      omega
    obtain e | e | e := exec_packet_cases p { s with rx := s.rx.consume used } <;> rw [e]
    · exact data _ _ _ hpl hfill
    · exact ack _ _ hfill
    · exact fin _ _ _ hfill

/-! ### A frame's meaning in each decode pass (R101) -/

section
variable {s : State}

theorem dataMeaning_send (ho : s.op = .send) (hp : s.phase = .sendPass) (seq : Seq) (pl : List Byte) :
    dataMeaning seq pl s = .next (sendDataArm s) := by simp only [dataMeaning, ho, hp]
theorem ackMeaning_send (ho : s.op = .send) (hp : s.phase = .sendPass) (ack : Seq) :
    ackMeaning ack s = .next (sendAckArm ack s) := by simp only [ackMeaning, ho, hp]
theorem finMeaning_send (ho : s.op = .send) (hp : s.phase = .sendPass) (seq ack : Seq) :
    finMeaning seq ack s = .next (sendFinArm seq ack s) := by simp only [finMeaning, ho, hp]

theorem dataMeaning_recv (ho : s.op = .recv) (hp : s.phase = .recvPass) (seq : Seq) {pl : List Byte}
    (hpl : pl.length ≤ s.cfg.maxp) : dataMeaning seq pl s = .next (recvDataArm seq pl s) := by
  simp only [dataMeaning, ho, hp, if_pos hpl]
theorem ackMeaning_recv (ho : s.op = .recv) (hp : s.phase = .recvPass) (ack : Seq) :
    ackMeaning ack s = .next (recvAckArm s) := by simp only [ackMeaning, ho, hp]
theorem finMeaning_recv (ho : s.op = .recv) (hp : s.phase = .recvPass) (seq ack : Seq) :
    finMeaning seq ack s = .next (recvFinArm s) := by simp only [finMeaning, ho, hp]

theorem dataMeaning_close (ho : s.op = .close) (hp : s.phase = .closePass) (seq : Seq) (pl : List Byte) :
    dataMeaning seq pl s = .next (closeSkipArm s) := by simp only [dataMeaning, ho, hp]
theorem ackMeaning_close (ho : s.op = .close) (hp : s.phase = .closePass) (ack : Seq) :
    ackMeaning ack s = .next (closeSkipArm s) := by simp only [ackMeaning, ho, hp]
theorem finMeaning_close (ho : s.op = .close) (hp : s.phase = .closePass) (seq ack : Seq) :
    finMeaning seq ack s = .next (closeFinArm s) := by simp only [finMeaning, ho, hp]

theorem dataMeaning_wait (ho : s.op = .wait) (hp : s.phase = .waitPass) (seq : Seq) (pl : List Byte) :
    dataMeaning seq pl s = .next (waitReplyArm s) := by simp only [dataMeaning, ho, hp]
theorem ackMeaning_wait (ho : s.op = .wait) (hp : s.phase = .waitPass) (ack : Seq) :
    ackMeaning ack s = .next (waitReplyArm s) := by simp only [ackMeaning, ho, hp]
theorem finMeaning_wait (ho : s.op = .wait) (hp : s.phase = .waitPass) (seq ack : Seq) :
    finMeaning seq ack s = .next (waitReplyArm s) := by simp only [finMeaning, ho, hp]

end

/-! ### SEND -/

theorem workLeft_leaveSendWait_le (u : State) : (leaveSendWait u).workLeft ≤ 3 := by
  unfold leaveSendWait
  split
  · exact Nat.zero_le _
  · exact le_rfl

/-- The advance leaves a window fit for the next round (R121, R123). -/
theorem sendWindow_advance {s : State} (h : SendWindow s) (hp : s.phase = .sendAdvance) :
    SendWindow ((advance s).goto .sendRound) := by
  obtain ⟨hl, hle, -, hin, -⟩ := h
  obtain ⟨-, hb, hack⟩ := hin (by rw [hp]; rfl)
  rw [hb] at hack
  have hw : s.work.acked >>> s.cfg.w = 0 := ushiftRight_eq_zero_of_le hack (Nat.min_le_left _ _)
  have hbit : s.work.acked.getLsbD s.cfg.w = false := by
    simpa using congrArg (BitVec.getLsbD · 0) hw
  refine ⟨hl, (Nat.sub_le _ _).trans hle, fun _ => ⟨isAcked_zero_of_contiguous hbit, ?_⟩, nofun, nofun⟩
  change (s.work.acked >>> contiguous s.cfg.w s.work.acked) >>> burstCount s.cfg _ = 0
  rw [← BitVec.shiftRight_add]
  exact ushiftRight_eq_zero_of_le hack (burstCount_le_add_advance hl _ _)

section
variable {s : State} (ho : s.op = .send)
include ho

theorem runSend_quiet (hp : s.phase = .sendEntry) : Quiet s (runSend s) := by
  unfold runSend
  split
  · exact Quiet.ends (by simp [State.workLeft, hp])
  · refine ⟨⟨rfl, .inr ⟨rfl, ho.symm, rfl⟩, fun h => ⟨h.1, le_rfl, fun _ => ⟨?_, ?_⟩, nofun, nofun⟩⟩, fun _ => ?_⟩
    · simp [isAcked]
    · simp
    · simp [State.workLeft, hp]

theorem stepSendRound_quiet (hp : s.phase = .sendRound) : Quiet s (stepSendRound s) := by
  unfold stepSendRound
  split
  case isTrue hr =>
    refine ⟨⟨rfl, .inr ⟨rfl, ho.symm, rfl⟩, fun ⟨hl, hle, hround, _⟩ => ?_⟩, fun _ => ?_⟩
    · obtain ⟨h0, hack⟩ := hround hp
      exact ⟨hl, hle, nofun, fun _ => ⟨hr, rfl, hack⟩, fun _ => ⟨Nat.zero_le _, h0⟩⟩
    · simp [State.workLeft, hp]
  case isFalse =>
    refine ⟨⟨rfl, .inr ⟨rfl, ho.symm, rfl⟩, fun h => ?_⟩, fun _ => ?_⟩
    · exact sendWindow_of_outside h ⟨rfl, rfl, rfl⟩ nofun rfl
    · simp [State.workLeft, hp]

theorem stepSendBurst_quiet {j : Nat} (hp : s.phase = .sendBurst j) : Quiet s (stepSendBurst j s) := by
  have hround : s.phase.inRound = true := by rw [hp]; rfl
  have hburst : s.phase.inBurst = true := by rw [hp]; rfl
  unfold stepSendBurst
  split
  case isTrue hj =>
    split
    case isTrue ha =>
      refine ⟨⟨rfl, .inr ⟨rfl, ho.symm, rfl⟩, fun ⟨hl, hle, _, hin, hb⟩ => ?_⟩, fun ⟨_, _, _, _, hb⟩ => ?_⟩
      · exact ⟨hl, hle, nofun, fun _ => hin hround, fun _ => ⟨hj, (hb hburst).2⟩⟩
      · cases j with
        | zero => rw [(hb hburst).2] at ha; cases ha
        | succ j => simp only [State.workLeft, hp, State.goto_phase, State.goto_work]; omega
    case isFalse =>
      refine ⟨⟨rfl, .inr ⟨rfl, ho.symm, rfl⟩, fun ⟨hl, hle, _, hin, hb⟩ => ?_⟩, fun _ => ?_⟩
      · exact ⟨hl, hle, nofun, fun _ => hin hround, fun _ => ⟨hj, (hb hburst).2⟩⟩
      · cases j <;> simp [State.workLeft, hp, txDataFrame]
  case isFalse hj =>
    refine ⟨⟨rfl, .inr ⟨rfl, ho.symm, rfl⟩, fun h => ?_⟩, fun ⟨hl, _, _, hin, _⟩ => ?_⟩
    · exact sendWindow_of_waiting h hround ⟨rfl, rfl, rfl⟩ rfl id nofun rfl
    · obtain ⟨hr, hb, -⟩ := hin hround
      have hpos := burstCount_pos hl hr
      cases j with
      | zero => omega
      | succ j => simp only [State.workLeft, hp]; omega

/-- The end of the wait returns, or goes on to the advance (R113, R120). -/
theorem leaveSendWait_steps {u : State} (hw : s.phase.inRound = true) (hop : u.op = s.op) (hi : u.inited = s.inited)
    (hr : SameRound s u) (hb : u.work.burstI = s.work.burstI) (ha : u.work.acked = s.work.acked) :
    Steps u.chan s (leaveSendWait u) := by
  unfold leaveSendWait
  split
  · exact Steps.ends rfl hr
  · exact ⟨rfl, .inr ⟨hop, ho.symm, hi⟩, fun h => sendWindow_of_waiting h hw hr hb (ha ▸ id) nofun rfl⟩

theorem stepSendWait_quiet (hp : s.phase = .sendWait) : Quiet s (stepSendWait s) := by
  have hround : s.phase.inRound = true := by rw [hp]; rfl
  have hleft : s.workLeft = 4 := by simp only [State.workLeft, hp]
  unfold stepSendWait
  split
  · refine ⟨leaveSendWait_steps ho hround rfl rfl ⟨rfl, rfl, rfl⟩ rfl rfl, fun _ => ?_⟩
    rw [hleft]
    exact Nat.lt_succ_of_le (workLeft_leaveSendWait_le s)
  · refine ⟨⟨rfl, .inr ⟨rfl, ho.symm, rfl⟩, fun h => ?_⟩, fun _ => ?_⟩
    · exact sendWindow_of_waiting h hround ⟨rfl, rfl, rfl⟩ rfl id nofun rfl
    · rw [hleft]; exact Nat.succ_pos 3

theorem stepSendAdvance_quiet (hp : s.phase = .sendAdvance) : Quiet s (stepSendAdvance s) := by
  unfold stepSendAdvance
  split
  · refine ⟨⟨rfl, .inr ⟨rfl, ho.symm, rfl⟩, fun h => ?_⟩, fun _ => ?_⟩
    · exact sendWindow_of_outside (sendWindow_advance h hp) ⟨rfl, rfl, rfl⟩ nofun rfl
    · simp [State.workLeft, hp]
  · refine ⟨⟨rfl, .inr ⟨rfl, ho.symm, rfl⟩, fun h => sendWindow_advance h hp⟩, fun _ => ?_⟩
    simp [State.workLeft, hp]

/-- SEND's frame arms stay in the round: they go on with the pass or stand at the echo's write, and only their marks touch `ACKED`
(R116 to R119). -/
theorem sendArm_quiet {t : State} (hp : s.phase = .sendPass) (hop : t.op = s.op)
    (hph : t.phase = .sendPass ∨ t.phase = .sendEcho) (hi : t.inited = s.inited) (hc : t.chan = s.chan)
    (hr : SameRound s t) (hb : t.work.burstI = s.work.burstI)
    (ha : s.work.acked >>> s.work.burstI = 0 → t.work.acked >>> s.work.burstI = 0) (hf : t.rx.fill < s.rx.fill) :
    Quiet s t := by
  have hround : s.phase.inRound = true := by rw [hp]; rfl
  refine ⟨⟨hc, .inr ⟨hop, ?_, hi⟩, fun h => sendWindow_of_waiting h hround hr hb ha ?_ ?_⟩, fun _ => ?_⟩
  all_goals obtain e | e := hph
  all_goals simp [e, ho, hp, Phase.op, Phase.inBurst, State.workLeft, hf]

theorem sendPass_quiet (hp : s.phase = .sendPass) : ∃ t, stepPass s = .next t ∧ Quiet s t := by
  have hround : s.phase.inRound = true := by rw [hp]; rfl
  refine stepPass_quiet (fun r => ?_)
    (fun q pl r _ hf => ⟨_, dataMeaning_send (s := { s with rx := r }) ho hp q pl, ?_⟩)
    (fun a r hf => ⟨_, ackMeaning_send (s := { s with rx := r }) ho hp a, ?_⟩)
    (fun q a r hf => ⟨_, finMeaning_send (s := { s with rx := r }) ho hp q a, ?_⟩)
  · rw [hp]
    refine ⟨⟨rfl, .inr ⟨rfl, ho.symm, rfl⟩, fun h => ?_⟩, fun _ => ?_⟩
    · exact sendWindow_of_waiting h hround ⟨rfl, rfl, rfl⟩ rfl id nofun rfl
    · simp [State.workLeft, hp, Phase.afterPass]
  · exact sendArm_quiet ho hp rfl (.inl hp) rfl rfl ⟨rfl, rfl, rfl⟩ rfl id hf
  · exact sendArm_quiet ho hp rfl (.inl hp) rfl rfl ⟨rfl, rfl, rfl⟩ rfl (markOne_ushiftRight · _) hf
  · exact sendArm_quiet ho hp rfl (.inr rfl) rfl rfl ⟨rfl, rfl, rfl⟩ rfl (markBelow_ushiftRight · _) hf

theorem stepSendRead_steps (hp : s.phase = .sendRead) :
    NextUnlessTooLong (Steps (s.logRead s.room).chan s) (stepSendRead s) := by
  have hround : s.phase.inRound = true := by rw [hp]; rfl
  unfold stepSendRead
  obtain e | ⟨u, hu, e⟩ | ⟨u, e⟩ := rxRead_outcomes s
  · rw [e]
    exact .inr ⟨_, rfl, Steps.ends⟩
  · have hb : u.work.burstI = s.work.burstI := by rw [hu.work]
    have ha : u.work.acked = s.work.acked := by rw [hu.work]
    have hgoto {p : Phase} (hpo : p.op = .send) (hp1 : p ≠ .sendRound) (hp2 : p.inBurst = false) :
        Steps (s.logRead s.room).chan s (u.goto p) :=
      ⟨hu.chan, .inr ⟨hu.op, hpo.trans ho.symm, hu.inited⟩,
        fun h => sendWindow_of_waiting h hround hu.sameRound hb (ha ▸ id) hp1 hp2⟩
    obtain e | e | e := e <;> rw [e]
    · exact .inr ⟨u.goto .sendWait, rfl, hgoto rfl nofun rfl⟩
    · exact .inr ⟨_, rfl, hu.chan ▸ leaveSendWait_steps ho hround hu.op hu.inited hu.sameRound hb ha⟩
    · exact .inr ⟨u.goto .sendPass, rfl, hgoto rfl nofun rfl⟩
  · rw [e]
    exact .inl rfl

theorem stepSendWrite_steps {j : Nat} (hp : s.phase = .sendWrite j) :
    Steps (s.logWrite s.txBytes).chan s (stepSendWrite j s) := by
  refine chanWrite_steps ⟨rfl, .inr ⟨rfl, ho.symm, rfl⟩, fun ⟨hl, hle, _, hin, hb⟩ => ?_⟩
  have hslot : s.phase.burstSlot = j + 1 := by rw [hp]; rfl
  exact ⟨hl, hle, nofun, fun _ => hin (by rw [hp]; rfl), fun _ => hslot ▸ hb (by rw [hp]; rfl)⟩

theorem stepSendEcho_steps (hp : s.phase = .sendEcho) : Steps (s.logWrite s.txBytes).chan s (stepSendEcho s) := by
  have hround : s.phase.inRound = true := by rw [hp]; rfl
  exact chanWrite_steps ⟨rfl, .inr ⟨rfl, ho.symm, rfl⟩,
    fun h => sendWindow_of_waiting h hround ⟨rfl, rfl, rfl⟩ rfl id nofun rfl⟩

end

end Sys2Proof.Machine
end

section
/-! PROOFS. The steps of INIT, RESET, RECV, CLOSE and WAIT. -/

namespace Sys2Proof.Machine

/-! ### INIT and RESET -/

theorem runInit_quiet {s : State} (hp : s.phase = .init) : Quiet s (runInit s) :=
  ⟨Steps.ends, fun _ => by simp [State.workLeft, hp, runInit]⟩

theorem runReset_quiet {s : State} (hp : s.phase = .reset) : Quiet s (runReset s) :=
  ⟨Steps.ends, fun _ => by simp [State.workLeft, hp, runReset]⟩

/-! ### RECV -/

section
variable {s : State} (ho : s.op = .recv)
include ho

theorem runRecv_quiet (hp : s.phase = .recvEntry) : Quiet s (runRecv s) := by
  refine ⟨Steps.elsewhere ho, fun _ => ?_⟩
  have hleft : s.workLeft = s.conn.win.length + 3 := by simp only [State.workLeft, hp]
  exact hleft ▸ Nat.lt_succ_of_le (workLeft_le_of_atDrain (s := runRecv s) (.inl rfl))

/-- A turn of the drain, at either of its labels. -/
theorem drainTurn_quiet {t : State} (hd : s.AtDrain) (h : drainTurn s = some t) : Quiet s t := by
  have hf := drainTurn_frame h
  have hph : t.phase = s.phase := by rw [hf]
  have hpo : s.phase.op = .recv := by obtain e | ⟨q, e⟩ := hd <;> rw [e] <;> rfl
  refine ⟨Steps.elsewhere ho nofun (hph ▸ hpo) ?_ ?_ ?_ ⟨?_, ?_, ?_⟩, fun _ => ?_⟩
  case refine_7 =>
    rw [workLeft_of_atDrain hd, workLeft_of_atDrain (s := t) (by rwa [State.AtDrain, hph])]
    exact Nat.succ_lt_succ (drainLeft_drainTurn h)
  all_goals rw [hf]

theorem stepRecvDrain_quiet (hp : s.phase = .recvDrain) : Quiet s (stepRecvDrain s) := by
  have hpos : 0 < s.workLeft := by simp [State.workLeft, hp]
  unfold stepRecvDrain
  split
  case h_1 t ht => exact drainTurn_quiet ho (.inl hp) ht
  case h_2 =>
    unfold recvEntryTests
    split
    · exact Quiet.ends hpos
    · split
      · split
        · exact Quiet.ends hpos
        · exact Quiet.ends hpos
      · exact ⟨Steps.elsewhere ho, fun _ => hpos⟩

theorem stepRecvRedrain_quiet {q : Seq} (hp : s.phase = .recvRedrain q) : Quiet s (stepRecvRedrain q s) := by
  unfold stepRecvRedrain
  split
  case h_1 t ht => exact drainTurn_quiet ho (.inr ⟨q, hp⟩) ht
  case h_2 => exact ⟨Steps.elsewhere ho, fun _ => by simp [State.workLeft, hp, txAck]⟩

theorem recvDataArm_quiet (hp : s.phase = .recvPass) (q : Seq) (pl : List Byte) {r : RxBuf}
    (hf : r.fill < s.rx.fill) : Quiet s (recvDataArm q pl { s with rx := r }) := by
  simp only [recvDataArm]
  split
  · refine ⟨Steps.elsewhere ho, fun _ => ?_⟩
    refine (workLeft_le_of_atDrain (.inr ⟨q, rfl⟩)).trans_lt ?_
    simp only [State.workLeft, hp, Conn.setSlot, List.length_set]
    omega
  · exact ⟨Steps.elsewhere ho, fun _ => by simp [State.workLeft, hp, txAck]⟩

theorem recvPass_quiet (hp : s.phase = .recvPass) : ∃ t, stepPass s = .next t ∧ Quiet s t := by
  refine stepPass_quiet (fun r => ?_)
    (fun q pl r hpl hf => ⟨_, dataMeaning_recv (s := { s with rx := r }) ho hp q hpl, recvDataArm_quiet ho hp q pl hf⟩)
    (fun a r hf => ⟨_, ackMeaning_recv (s := { s with rx := r }) ho hp a, ?_⟩)
    (fun q a r hf => ⟨_, finMeaning_recv (s := { s with rx := r }) ho hp q a, ?_⟩)
  · rw [hp]
    exact ⟨Steps.elsewhere ho, fun _ => by simp [State.workLeft, hp, Phase.afterPass]⟩
  · refine ⟨Steps.elsewhere ho (hp := congrArg Phase.op hp), fun _ => ?_⟩
    simpa [State.workLeft, hp, recvAckArm] using hf
  · exact ⟨Steps.elsewhere ho, fun _ => by simp [State.workLeft, hp, recvFinArm, txFinOwn]⟩

theorem stepRecvWait_steps (hp : s.phase = .recvWait) :
    NextUnlessTooLong (Steps (s.logRead s.room).chan s) (stepRecvWait s) := by
  unfold stepRecvWait
  obtain e | ⟨u, hu, e⟩ | ⟨u, e⟩ := rxRead_outcomes s
  · rw [e]
    exact .inr ⟨_, rfl, Steps.ends⟩
  · obtain e | e | e := e <;> rw [e]
    · exact .inr ⟨u, rfl, hu.elsewhere ho (by rw [hp]; rfl)⟩
    · exact .inr ⟨_, rfl, Steps.ends hu.chan hu.sameRound⟩
    · exact .inr ⟨u.goto .recvPass, rfl, hu.goto_elsewhere ho⟩
  · rw [e]
    exact .inl rfl

theorem stepRecvReply_steps : Steps (s.logWrite s.txBytes).chan s (stepRecvReply s) := by
  refine chanWrite_steps ?_
  split
  · exact Steps.ends
  · exact Steps.elsewhere ho

omit ho in
theorem stepRecvEcho_steps : Steps (s.logWrite s.txBytes).chan s (stepRecvEcho s) :=
  chanWrite_steps Steps.ends

end

/-! ### CLOSE -/

section
variable {s : State} (ho : s.op = .close)
include ho

theorem runClose_quiet (hp : s.phase = .closeEntry) : Quiet s (runClose s) := by
  unfold runClose
  split
  · exact Quiet.ends (by simp [State.workLeft, hp])
  · exact ⟨Steps.elsewhere ho, fun _ => by simp [State.workLeft, hp]⟩

theorem stepCloseAttempt_quiet (hp : s.phase = .closeAttempt) : Quiet s (stepCloseAttempt s) := by
  unfold stepCloseAttempt
  split
  · exact ⟨Steps.elsewhere ho, fun _ => by simp [State.workLeft, hp, txFinOwn]⟩
  · exact ⟨Steps.elsewhere ho, fun _ => by simp [State.workLeft, hp]⟩

theorem closeSkipArm_quiet (hp : s.phase = .closePass) {r : RxBuf} (hf : r.fill < s.rx.fill) :
    Quiet s (closeSkipArm { s with rx := r }) := by
  refine ⟨Steps.elsewhere ho (hp := congrArg Phase.op hp), fun _ => ?_⟩
  simpa [State.workLeft, hp, closeSkipArm] using hf

theorem closePass_quiet (hp : s.phase = .closePass) : ∃ t, stepPass s = .next t ∧ Quiet s t := by
  refine stepPass_quiet (fun r => ?_)
    (fun q pl r _ hf => ⟨_, dataMeaning_close (s := { s with rx := r }) ho hp q pl, closeSkipArm_quiet ho hp hf⟩)
    (fun a r hf => ⟨_, ackMeaning_close (s := { s with rx := r }) ho hp a, closeSkipArm_quiet ho hp hf⟩)
    (fun q a r hf => ⟨_, finMeaning_close (s := { s with rx := r }) ho hp q a, ?_⟩)
  · rw [hp]
    exact ⟨Steps.elsewhere ho, fun _ => by simp [State.workLeft, hp, Phase.afterPass]⟩
  · exact ⟨Steps.ends, fun _ => by simp [State.workLeft, hp, closeFinArm]⟩

theorem stepCloseWait_steps (hp : s.phase = .closeWait) :
    NextUnlessTooLong (Steps (s.logRead s.room).chan s) (stepCloseWait s) := by
  unfold stepCloseWait
  obtain e | ⟨u, hu, e⟩ | ⟨u, e⟩ := rxRead_outcomes s
  · rw [e]
    exact .inr ⟨_, rfl, Steps.ends⟩
  · obtain e | e | e := e <;> rw [e]
    · exact .inr ⟨u, rfl, hu.elsewhere ho (by rw [hp]; rfl)⟩
    · exact .inr ⟨u.goto .closeAttempt, rfl, hu.goto_elsewhere ho⟩
    · exact .inr ⟨u.goto .closePass, rfl, hu.goto_elsewhere ho⟩
  · rw [e]
    exact .inl rfl

theorem stepCloseWrite_steps : Steps (s.logWrite s.txBytes).chan s (stepCloseWrite s) :=
  chanWrite_steps (Steps.elsewhere ho)

end

/-! ### WAIT -/

section
variable {s : State} (ho : s.op = .wait)
include ho

theorem runWait_quiet (hp : s.phase = .waitEntry) : Quiet s (runWait s) :=
  ⟨Steps.elsewhere ho, fun _ => by simp [State.workLeft, hp, runWait]⟩

theorem stepWaitRead_quiet (hp : s.phase = .waitRead) : Quiet s (stepWaitRead s) := by
  unfold stepWaitRead
  split
  · exact ⟨Steps.elsewhere ho, fun _ => by simp [State.workLeft, hp]⟩
  · exact ⟨Steps.elsewhere ho, fun _ => by simp [State.workLeft, hp]⟩

theorem waitReplyArm_quiet (hp : s.phase = .waitPass) (r : RxBuf) : Quiet s (waitReplyArm { s with rx := r }) :=
  ⟨Steps.elsewhere ho, fun _ => by simp [State.workLeft, hp, waitReplyArm, txFinOwn]⟩

theorem waitPass_quiet (hp : s.phase = .waitPass) : ∃ t, stepPass s = .next t ∧ Quiet s t := by
  refine stepPass_quiet (fun r => ?_)
    (fun q pl r _ _ => ⟨_, dataMeaning_wait (s := { s with rx := r }) ho hp q pl, waitReplyArm_quiet ho hp r⟩)
    (fun a r _ => ⟨_, ackMeaning_wait (s := { s with rx := r }) ho hp a, waitReplyArm_quiet ho hp r⟩)
    (fun q a r _ => ⟨_, finMeaning_wait (s := { s with rx := r }) ho hp q a, waitReplyArm_quiet ho hp r⟩)
  rw [hp]
  exact ⟨Steps.elsewhere ho, fun _ => by simp [State.workLeft, hp, Phase.afterPass]⟩

theorem stepWaitPoll_steps : NextUnlessTooLong (Steps (s.logRead s.room).chan s) (stepWaitPoll s) := by
  unfold stepWaitPoll
  obtain ⟨-, e⟩ | ⟨-, e⟩ | ⟨bs, -, -, ⟨-, e⟩ | ⟨-, e⟩⟩ := chanRead_cases s <;> rw [e]
  · exact .inr ⟨_, rfl, Steps.ends⟩
  · exact .inr ⟨_, rfl, Steps.elsewhere ho⟩
  · exact .inr ⟨_, rfl, Steps.elsewhere ho⟩
  · exact .inl rfl

theorem stepWaitReply_steps : Steps (s.logWrite s.txBytes).chan s (stepWaitReply s) :=
  chanWrite_steps (Steps.elsewhere ho)

end

end Sys2Proof.Machine
end

section
/-! PROOFS. The step by its label; transactions and the work between them (R13, R18). -/

namespace Sys2Proof.Machine

/-! ### The step of a busy core by what its label stands at (R18, R21) -/

section
variable {s : State} (hp : s.phase.op = s.op)
include hp

theorem resume_of_reads (hr : s.phase.reads = true) :
    NextUnlessTooLong (Steps (s.logRead s.room).chan s) (resume s) := by
  unfold resume
  cases h : s.phase <;> rw [h] at hp hr <;> cases hr
  case sendRead => exact stepSendRead_steps hp.symm h
  case recvWait => exact stepRecvWait_steps hp.symm h
  case closeWait => exact stepCloseWait_steps hp.symm h
  case waitPoll => exact stepWaitPoll_steps hp.symm

theorem resume_of_writes (hw : s.phase.writes = true) :
    ∃ t, resume s = .next t ∧ Steps (s.logWrite s.txBytes).chan s t := by
  unfold resume
  cases h : s.phase <;> rw [h] at hp hw <;> cases hw
  case sendWrite => exact ⟨_, rfl, stepSendWrite_steps hp.symm h⟩
  case sendEcho => exact ⟨_, rfl, stepSendEcho_steps hp.symm h⟩
  case recvReply => exact ⟨_, rfl, stepRecvReply_steps hp.symm⟩
  case recvEcho => exact ⟨_, rfl, stepRecvEcho_steps⟩
  case closeWrite => exact ⟨_, rfl, stepCloseWrite_steps hp.symm⟩
  case waitReply => exact ⟨_, rfl, stepWaitReply_steps hp.symm⟩

theorem resume_quiet (hb : s.op ≠ .idle) (hr : s.phase.reads = false) (hw : s.phase.writes = false) :
    ∃ t, resume s = .next t ∧ Quiet s t := by
  unfold resume
  cases h : s.phase <;> rw [h] at hp hr hw <;> cases hr <;> cases hw
  case none => exact absurd hp.symm hb
  case init => exact ⟨_, rfl, runInit_quiet h⟩
  case reset => exact ⟨_, rfl, runReset_quiet h⟩
  case sendEntry => exact ⟨_, rfl, runSend_quiet hp.symm h⟩
  case sendRound => exact ⟨_, rfl, stepSendRound_quiet hp.symm h⟩
  case sendBurst => exact ⟨_, rfl, stepSendBurst_quiet hp.symm h⟩
  case sendWait => exact ⟨_, rfl, stepSendWait_quiet hp.symm h⟩
  case sendPass => exact sendPass_quiet hp.symm h
  case sendAdvance => exact ⟨_, rfl, stepSendAdvance_quiet hp.symm h⟩
  case sendDone => exact ⟨_, rfl, Quiet.ends (by simp [State.workLeft, h])⟩
  case recvEntry => exact ⟨_, rfl, runRecv_quiet hp.symm h⟩
  case recvDrain => exact ⟨_, rfl, stepRecvDrain_quiet hp.symm h⟩
  case recvPass => exact recvPass_quiet hp.symm h
  case recvRedrain => exact ⟨_, rfl, stepRecvRedrain_quiet hp.symm h⟩
  case closeEntry => exact ⟨_, rfl, runClose_quiet hp.symm h⟩
  case closeAttempt => exact ⟨_, rfl, stepCloseAttempt_quiet hp.symm h⟩
  case closePass => exact closePass_quiet hp.symm h
  case closeExhausted => exact ⟨_, rfl, Quiet.ends (by simp [State.workLeft, h])⟩
  case waitEntry => exact ⟨_, rfl, runWait_quiet hp.symm h⟩
  case waitRead => exact ⟨_, rfl, stepWaitRead_quiet hp.symm h⟩
  case waitPass => exact waitPass_quiet hp.symm h
  case waitDone => exact ⟨_, rfl, Quiet.ends (by simp [State.workLeft, h])⟩

end

/-! ### One transaction per step -/

/-- A busy core answers a next state only at a place in its own command's rule. -/
theorem busy_step {s t : State} (hb : s.op ≠ .idle) (h : step s = .next t) :
    s.phase.op = s.op ∧ resume s = .next t := by
  by_cases hp : s.phase.op = s.op
  · exact ⟨hp, step_busy hb hp ▸ h⟩
  · simp [step, nextStep, hb, hp] at h

/-- Settles O59: an idle core's step is a command's issue or nothing, and a busy core's is read off its label. -/
theorem atMostOneTransactionPerStep : Obligations.AtMostOneTransactionPerStep := by
  intro s t h
  refine ⟨fun hb hr => ?_, fun hb hw => ?_, fun hq => ?_⟩
  · obtain ⟨hp, h⟩ := busy_step hb h
    obtain e | ⟨u, e, hu⟩ := resume_of_reads hp hr <;> rw [e] at h <;> cases h
    exact hu.chan
  · obtain ⟨hp, h⟩ := busy_step hb h
    obtain ⟨u, e, hu⟩ := resume_of_writes hp hw
    rw [e] at h
    cases h
    exact hu.chan
  · by_cases hi : s.op = .idle
    · exact stepIdle_chan (step_idle hi ▸ h)
    · obtain ⟨hr, hw⟩ := hq.resolve_left hi
      obtain ⟨hp, h⟩ := busy_step hi h
      obtain ⟨u, e, hu⟩ := resume_quiet hp hi hr hw
      rw [e] at h
      cases h
      exact hu.chan

/-! ### The work between two transactions -/

/-- The core stands at the next channel transaction, or its command has ended. -/
def State.Settled (s : State) : Prop := s.op = .idle ∨ s.phase.reads = true ∨ s.phase.writes = true

theorem settle_of_settled {s : State} (h : s.Settled) (n : Nat) : settle n s = .next s := by
  cases n with
  | zero => rfl
  | succ n => exact if_pos h

theorem settle_succ {s t : State} (h : ¬s.Settled) (hs : step s = .next t) (n : Nat) :
    settle (n + 1) s = settle n t :=
  (if_neg h).trans (by rw [hs])

/-- Inside the invariants a core that stands at no transaction takes a step that makes none. -/
theorem step_quiet {s : State} (hc : Control s) (h : ¬s.Settled) : ∃ t, step s = .next t ∧ Quiet s t ∧ Control t := by
  simp only [State.Settled, not_or, Bool.not_eq_true] at h
  obtain ⟨hb, hr, hw⟩ := h
  obtain ⟨hi, -⟩ | ⟨-, hp, -⟩ := id hc
  · exact absurd hi hb
  · obtain ⟨t, e, ht⟩ := resume_quiet hp hb hr hw
    exact ⟨t, (step_busy hb hp).trans e, ht, ht.inCommand.control hc hb⟩

/-- The core settles within the work it has left, and makes no transaction on the way. -/
theorem settle_of_workLeft_le {n : Nat} {s : State} (hc : Control s) (hw : SendWindow s) (hn : s.workLeft ≤ n) :
    ∃ t, settle n s = .next t ∧ t.chan = s.chan ∧ t.Settled := by
  induction n generalizing s with
  | zero =>
    by_cases h : s.Settled
    · exact ⟨s, rfl, rfl, h⟩
    · obtain ⟨t, -, hq, -⟩ := step_quiet hc h
      have := hq.left hw
      omega
  | succ n ih =>
    by_cases h : s.Settled
    · exact ⟨s, settle_of_settled h _, rfl, h⟩
    · obtain ⟨t, hs, hq, hct⟩ := step_quiet hc h
      have hlt := hq.left hw
      obtain ⟨u, hu, hch, hset⟩ := ih hct (hq.window hw) (by omega)
      exact ⟨u, (settle_succ h hs n).trans hu, hch.trans hq.chan, hset⟩

/-- Settling is a run of steps. -/
theorem run_of_settle {n : Nat} {s t : State} (h : settle n s = .next t) : ∃ k, run k s = .next t := by
  induction n generalizing s with
  | zero => exact ⟨0, h⟩
  | succ n ih =>
    unfold settle at h
    split at h
    · exact ⟨0, h⟩
    · split at h
      case h_1 u hu =>
        obtain ⟨k, hk⟩ := ih h
        exact ⟨k + 1, by rw [run, hu]; exact hk⟩
      all_goals cases h

/-- A transaction and the settling after it: the step of rule R13. -/
theorem transactionStep_of_step {s u : State} {x : Transaction} (hc : Control s) (hw : SendWindow s)
    (hb : s.op ≠ .idle) (hs : step s = .next u) {ch : Chan} (hu : Steps ch s u) (hx : ch.trace = x :: s.chan.trace) :
    ∃ (t : State) (y : Transaction) (k : Nat), transactionStep s = .next t ∧ run k s = .next t ∧
      t.chan.trace = y :: s.chan.trace ∧ t.Settled := by
  have hwu := hu.window hw
  obtain ⟨t, ht, hch, hset⟩ :=
    settle_of_workLeft_le (hu.inCommand.control hc hb) hwu (workLeft_le_workBound hwu)
  obtain ⟨k, hk⟩ := run_of_settle ht
  refine ⟨t, x, k + 1, ?_, ?_, ?_, hset⟩
  · rw [transactionStep, hs]; exact ht
  · rw [run, hs]; exact hk
  · rw [hch, hu.chan, hx]

/-- Settles O60: `workLeft` falls with every step that makes no transaction and is at most `workBound`. -/
theorem boundedWorkBetweenTransactions : Obligations.BoundedWorkBetweenTransactions := by
  refine ⟨fun s hc hw _ => settle_of_workLeft_le hc hw (workLeft_le_workBound hw), fun s hc hw hb hrw => ?_⟩
  obtain ⟨hi, -⟩ | ⟨-, hp, -⟩ := id hc
  · exact absurd hi hb
  have hstep := step_busy hb hp
  obtain hr | hwr := hrw
  · obtain e | ⟨u, e, hu⟩ := resume_of_reads hp hr
    · exact .inl (by rw [transactionStep, hstep, e])
    · exact .inr (transactionStep_of_step hc hw hb (hstep.trans e) hu rfl)
  · obtain ⟨u, e, hu⟩ := resume_of_writes hp hwr
    exact .inr (transactionStep_of_step hc hw hb (hstep.trans e) hu rfl)

end Sys2Proof.Machine
end

section
/-! PROOFS. The reset, and the sequencer: `PHASE` stays in the rule of `OP` (R21, R22, R42). -/

namespace Sys2Proof.Machine

/-! ### Reset -/

/-- An idle core for which no command waits stays as it is (R22, R166). -/
theorem step_waits {s : State} (ho : s.op = .idle) (hh : s.host = []) : step s = .next s := by
  rw [step_idle ho, stepIdle, hh]

/-- Settles O1: both steps are an idle core's for which no command waits. -/
theorem resetIsIdleAndUninitialised : Obligations.ResetIsIdleAndUninitialised :=
  fun _ => ⟨rfl, rfl, rfl, step_waits rfl rfl, rfl, fun _ => step_waits⟩

theorem slots_pos {c : Config} (h : c.Legal) : 0 < c.w := by
  obtain ⟨hw, -⟩ := h
  simp only [List.mem_cons, List.not_mem_nil, or_false] at hw
  omega

/-- Settles O2: at reset the window holds empty slots, every space is empty, and the idle core is at no label. -/
theorem resetIsSound : Obligations.ResetIsSound := by
  intro c hc
  have hwin {v : Slot} (hv : v ∈ (State.resetWith c).conn.win) : v = Slot.empty := List.eq_of_mem_replicate hv
  refine ⟨⟨hc, List.length_replicate, slots_pos hc, fun v hv => ?_⟩, .inl ⟨rfl, rfl⟩,
    ⟨rfl, rfl, rfl, rfl, fun v hv => ?_, nofun⟩, ⟨hc, Nat.zero_le _, nofun, nofun⟩,
    ⟨hc, le_rfl, nofun, nofun, nofun⟩, le_rfl, nofun⟩
  · rw [hwin hv]; exact Nat.zero_le _
  · rw [hwin hv]; rfl

/-! ### The sequencer -/

/-- The host's encoding has commands only (R77). -/
theorem decodeLaunch_isFrame (l : Launch) : (decodeLaunch l).isFrame = false := by
  unfold decodeLaunch
  repeat' split
  all_goals rfl

/-- A command that needs INIT is issued only to an initialised core (R171). -/
theorem guardLaunch_true_next {s t : State} {k : Outcome} (h : guardLaunch true s k = .next t) :
    s.inited = true ∧ k = .next t := by
  obtain ⟨-, hi, e⟩ | ⟨-, e⟩ | ⟨-, -, -, e⟩ := guardLaunch_cases true s k <;> rw [e] at h
  · exact ⟨hi rfl, h⟩
  · cases h
  · cases h

theorem control_ended (v : Word) (s : State) : Control (s.endWith v) := .inl ⟨rfl, rfl⟩

theorem runSend_control {s : State} (ho : s.op = .send) (hi : s.inited = true) : Control (runSend s) := by
  unfold runSend
  split
  · exact control_ended _ s
  · exact .inr ⟨ho ▸ nofun, ho.symm, .inr hi⟩

theorem runClose_control {s : State} (ho : s.op = .close) (hi : s.inited = true) : Control (runClose s) := by
  unfold runClose
  split
  · exact control_ended _ s
  · exact .inr ⟨ho ▸ nofun, ho.symm, .inr hi⟩

/-- An issued command has ended, or stands in its own rule on an initialised core (R21, R104, R171). -/
theorem exec_command_control {i : Instr} {s t : State} (hi : i.isFrame = false) (h : exec i s = .next t) :
    Control t := by
  cases i with
  | data | ack | fin | flag11 => cases hi
  | init => cases guardLaunch_next h; exact control_ended ..
  | reset => cases guardLaunch_next h; exact control_ended ..
  | send =>
    obtain ⟨hin, hk⟩ := guardLaunch_true_next h
    split at hk <;> cases hk
    exact runSend_control rfl hin
  | recv =>
    obtain ⟨hin, hk⟩ := guardLaunch_true_next h
    split at hk <;> cases hk
    exact .inr ⟨nofun, rfl, .inr hin⟩
  | close =>
    obtain ⟨hin, hk⟩ := guardLaunch_true_next h
    cases hk
    exact runClose_control rfl hin
  | wait =>
    obtain ⟨hin, hk⟩ := guardLaunch_true_next h
    cases hk
    exact .inr ⟨nofun, rfl, .inr hin⟩
  | isclosed => cases guardLaunch_next h; exact control_ended ..
  | setclosed => cases guardLaunch_next h; exact control_ended ..

/-- A busy core's step ends its command or stays in it, whatever its label (R21, R22). -/
theorem busy_step_inCommand {s t : State} (hb : s.op ≠ .idle) (h : step s = .next t) : InCommand s t := by
  obtain ⟨hp, h⟩ := busy_step hb h
  cases hr : s.phase.reads
  case true =>
    obtain e | ⟨u, e, hu⟩ := resume_of_reads hp hr <;> rw [e] at h <;> cases h
    exact hu.inCommand
  case false =>
    cases hw : s.phase.writes
    case true =>
      obtain ⟨u, e, hu⟩ := resume_of_writes hp hw
      rw [e] at h
      cases h
      exact hu.inCommand
    case false =>
      obtain ⟨u, e, hu⟩ := resume_quiet hp hb hr hw
      rw [e] at h
      cases h
      exact hu.inCommand

/-- Settles O49: an idle core waits or issues a command, a busy core ends its command or stays in it. -/
theorem stepKeepsTheSequencer : Obligations.StepKeepsTheSequencer := by
  intro s t hc h
  by_cases ho : s.op = .idle
  · rw [step_idle ho, stepIdle] at h
    split at h
    · cases h; exact hc
    · exact exec_command_control (decodeLaunch_isFrame _) h
  · exact (busy_step_inCommand ho h).control hc ho

end Sys2Proof.Machine
end

section
/-! PROOFS. What one step can do to the Connection State, RECV's counters, `INITED` and `RESULT`: the inversion of `step` that the
invariants of 10_state.md are read off. -/

namespace Sys2Proof.Machine

/-! ### The writes of a step -/

/-- The parameters, `INITED`, the Connection State, `CAP` and `OUTCNT` are the same in both states, and `RESULT` is unless the
command has ended. -/
structure Untouched (s t : State) : Prop where
  cfg : t.cfg = s.cfg
  inited : t.inited = s.inited
  conn : t.conn = s.conn
  cap : t.work.cap = s.work.cap
  outcnt : t.work.outcnt = s.work.outcnt
  result : t.result = s.result ∨ t.op = .idle

/-- INIT is the command the core takes, or the one it is in (R105). -/
def State.TakesInit (s : State) : Prop := s.op = .init ∨ ∃ r w x, s.nextCommand = some (.init r w x)

/-- RESET is the command the core takes, or the one it is in (R106). -/
def State.TakesReset (s : State) : Prop := s.op = .reset ∨ s.nextCommand = some .reset

/-- The writers of `CLOSED` <- 1 (R27). -/
def State.MayClose (s : State) : Prop :=
  s.nextCommand = some .setclosed ∨ s.phase = .sendEcho ∨ s.phase = .recvEcho ∨ (s.phase = .closePass ∧ FrontIs s .fin)

/-- The Connection State INIT and RESET leave, but for the limits and `CTX` (R105, R106). -/
def Conn.restarted (c : Conn) : Conn := { c.clearSlots with seq := 0, ack := 0, wnd := 0, closed := false }

/-- The one write a step makes to the registers `Untouched` speaks of, with the place it is made at. -/
inductive Writes (s : State) : State → Prop
  | nothing : Writes s s
  | init (hs : s.TakesInit) (r m : Word) (x : Nat) :
    Writes s { s with inited := true, conn := { s.conn.restarted with maxRetrans := r, maxTimeout := m, ctx := x } }
  | reset (hs : s.TakesReset) : Writes s { s with conn := s.conn.restarted }
  | close (hs : s.MayClose) : Writes s s.setClosed
  | advance (hs : s.phase = .sendAdvance) : Writes s (advance s)
  | recv (n : Nat) : Writes s { s with work := { s.work with cap := n, outcnt := 0 } }
  | store (i : Nat) (v : Slot) (hv : v.len ≤ s.cfg.maxp) : Writes s { s with conn := s.conn.setSlot i v }
  | drain {t : State} (h : drainTurn s = some t) : Writes s t

/-- RECV may still receive (R135). -/
def State.Receives (s : State) : Prop := s.phase = .recvWait ∨ s.phase = .recvPass

/-- The core stands at a FIN echo's write (R119, R133). -/
def State.Echoes (s : State) : Prop := s.phase = .sendEcho ∨ s.phase = .recvEcho

/-- The labels that are entered under a condition only: those of `State.Receives` and `State.Echoes`. -/
def Phase.guarded : Phase → Bool
  | .recvWait | .recvPass | .sendEcho | .recvEcho => true
  | _ => false

theorem State.Receives.guarded {s : State} (h : s.Receives) : s.phase.guarded = true := by
  obtain e | e := h <;> rw [e] <;> rfl

theorem State.Echoes.guarded {s : State} (h : s.Echoes) : s.phase.guarded = true := by
  obtain e | e := h <;> rw [e] <;> rfl

theorem State.Receives.not_echoes {s : State} (h : s.Receives) : ¬s.Echoes := by
  rintro (e' | e') <;> obtain e | e := h <;> cases e.symm.trans e'

/-- How a step comes to the label it ends at. -/
inductive Entered (s t : State) : Prop
  | free (hp : t.phase.guarded = false)
  | waits (hi : s.op = .idle) (e : t = s)
  | receives (hp : t.Receives) (hk : Untouched s t) (hs : s.Receives ∨ s.work.outcnt ≠ s.work.cap)
  | echoes (hp : t.Echoes) (hs : s.phase = .sendPass ∨ s.phase = .recvPass) (hf : FrontIs s .fin)

/-- What a step does: one write, and the way to its label. -/
structure Effect (s t : State) : Prop where
  writes : ∃ u, Writes s u ∧ Untouched u t
  entered : Entered s t

/-- `P` holds of the next state, if the outcome is one. -/
def IfNext (P : State → Prop) : Outcome → Prop
  | .next t => P t
  | .fault _ => True
  | .refused _ => True

theorem IfNext.elim {P : State → Prop} {o : Outcome} {t : State} (h : IfNext P o) (e : o = .next t) : P t := by
  rw [e] at h
  exact h

/-! ### Rules for `Untouched` and `Effect` -/

theorem Untouched.goto {s u : State} (h : Untouched s u) (p : Phase) : Untouched s (u.goto p) :=
  ⟨h.cfg, h.inited, h.conn, h.cap, h.outcnt, h.result⟩

theorem Untouched.endWith {s u : State} (h : Untouched s u) (v : Word) : Untouched s (u.endWith v) :=
  ⟨h.cfg, h.inited, h.conn, h.cap, h.outcnt, .inr rfl⟩

/-- A step that writes, and comes to a label that is free to enter. Where the next state is written out, what it leaves alone holds
by computation. -/
theorem Effect.of_writes {s u t : State} (hw : Writes s u)
    (hk : Untouched u t := by exact ⟨rfl, rfl, rfl, rfl, rfl, .inl rfl⟩) (hp : t.phase.guarded = false := by rfl) :
    Effect s t := ⟨⟨u, hw, hk⟩, .free hp⟩

/-- A step that writes none of the registers, and comes to a label that is free to enter. -/
theorem Effect.of_untouched {s t : State} (hk : Untouched s t := by exact ⟨rfl, rfl, rfl, rfl, rfl, .inl rfl⟩)
    (hp : t.phase.guarded = false := by rfl) : Effect s t := .of_writes .nothing hk hp

/-- A step that ends its command. -/
theorem Effect.ends {s u : State} {v : Word} (hk : Untouched s u := by exact ⟨rfl, rfl, rfl, rfl, rfl, .inl rfl⟩) :
    Effect s (u.endWith v) := .of_untouched (hk.endWith v)

/-- A step to a label that is free to enter. -/
theorem Effect.goto {s u : State} {p : Phase} (hk : Untouched s u := by exact ⟨rfl, rfl, rfl, rfl, rfl, .inl rfl⟩)
    (hp : p.guarded = false := by rfl) : Effect s (u.goto p) := .of_untouched (hk.goto p) hp

/-- A step to one of the labels where RECV may still receive. -/
theorem Effect.receives {s t : State} (hp : t.Receives) (hs : s.Receives ∨ s.work.outcnt ≠ s.work.cap)
    (hk : Untouched s t := by exact ⟨rfl, rfl, rfl, rfl, rfl, .inl rfl⟩) : Effect s t :=
  ⟨⟨s, .nothing, hk⟩, .receives hp hk hs⟩

/-- A step to a FIN echo's write. -/
theorem Effect.echoes {s t : State} (hp : t.Echoes) (hs : s.phase = .sendPass ∨ s.phase = .recvPass)
    (hf : FrontIs s .fin) (hk : Untouched s t := by exact ⟨rfl, rfl, rfl, rfl, rfl, .inl rfl⟩) : Effect s t :=
  ⟨⟨s, .nothing, hk⟩, .echoes hp hs hf⟩

/-! ### The shared operations -/

/-- A write followed by `k` does what `k` does, or ends the command (R95). -/
theorem chanWrite_effect {k : State → State} {s : State} (hk : Effect s (k (s.logWrite s.txBytes))) :
    Effect s (chanWrite k s) := by
  obtain ⟨-, e⟩ | ⟨-, e⟩ := chanWrite_cases k s <;> rw [e]
  · exact hk
  · exact Effect.ends

/-- RXREAD writes none of the registers, whatever the answer (R99). -/
theorem rxRead_untouched {s u : State} {e : RxResult} (h : rxRead s = (e, u)) : Untouched s u := by
  obtain ⟨-, hr⟩ | ⟨-, hr⟩ | ⟨bs, -, -, ⟨-, hr⟩ | ⟨-, hr⟩⟩ := rxRead_cases s <;> cases hr.symm.trans h
  · exact ⟨rfl, rfl, rfl, rfl, rfl, .inr rfl⟩
  all_goals exact ⟨rfl, rfl, rfl, rfl, rfl, .inl rfl⟩

/-- The meaning of a packet is that of the class CLASSIFY gives it (R66, R94). -/
theorem exec_packet_class {p : Packet} {s : State} :
    (classify s.cfg p.flag = .data ∧ exec p.instr s = dataMeaning p.seq p.payload s) ∨
      (classify s.cfg p.flag = .ack ∧ exec p.instr s = ackMeaning p.ack s) ∨
      (classify s.cfg p.flag = .fin ∧ exec p.instr s = finMeaning p.seq p.ack s) := by
  obtain ⟨hb, hi⟩ | ⟨hb, hi⟩ | ⟨hb, hi⟩ | ⟨hb, hi⟩ := Packet.instr_cases p <;> rw [hi]
  · exact .inl ⟨by simp [classify, hb], rfl⟩
  · exact .inr (.inl ⟨by simp [classify, hb], rfl⟩)
  · exact .inr (.inr ⟨by simp [classify, hb], rfl⟩)
  · cases h : s.cfg.flag11 with
    | ack => exact .inr (.inl ⟨by simp [classify, hb, h, Flag11Class.toClass], exec_flag11_ack h ..⟩)
    | fin => exact .inr (.inr ⟨by simp [classify, hb, h, Flag11Class.toClass], exec_flag11_fin h ..⟩)

/-- One turn of the decode pass, from the way out of the pass and the meanings of the classes; the FIN class's is needed only where
such a frame is at the front (R101). -/
theorem stepPass_effect {s : State} (after : ∀ r, Effect s ({ s with rx := r }.goto s.phase.afterPass))
    (data : ∀ q pl r, pl.length ≤ s.cfg.maxp → IfNext (Effect s) (dataMeaning q pl { s with rx := r }))
    (ack : ∀ a r, IfNext (Effect s) (ackMeaning a { s with rx := r }))
    (fin : FrontIs s .fin → ∀ q a r, IfNext (Effect s) (finMeaning q a { s with rx := r })) :
    IfNext (Effect s) (stepPass s) := by
  obtain ⟨-, e⟩ | ⟨-, -, e⟩ | ⟨p, used, hd, e⟩ := stepPass_cases s <;> rw [e]
  · exact after s.rx
  · exact after s.rx.discard
  · obtain ⟨-, e⟩ | ⟨-, e⟩ | ⟨hf, e⟩ := exec_packet_class (p := p) (s := { s with rx := s.rx.consume used }) <;> rw [e]
    · exact data _ _ _ (Packet.payload_le_of_decode hd).1
    · exact ack _ _
    · exact fin ⟨p, used, hd, hf⟩ _ _ _

/-! ### SEND -/

section
variable {s : State}

theorem runSend_effect {u : State} (h : Untouched s u) : Effect s (runSend u) := by
  unfold runSend
  split
  · exact Effect.ends h
  · exact Effect.of_untouched ⟨h.cfg, h.inited, h.conn, h.cap, h.outcnt, h.result⟩

theorem stepSendRound_effect : Effect s (stepSendRound s) := by
  unfold stepSendRound
  split
  · exact Effect.of_untouched
  · exact Effect.goto

theorem stepSendBurst_effect (j : Nat) : Effect s (stepSendBurst j s) := by
  unfold stepSendBurst
  split
  · split
    · exact Effect.goto
    · exact Effect.of_untouched
  · exact Effect.of_untouched

theorem leaveSendWait_effect {u : State} (h : Untouched s u) : Effect s (leaveSendWait u) := by
  unfold leaveSendWait
  split
  · exact Effect.ends h
  · exact Effect.goto h

theorem stepSendWait_effect : Effect s (stepSendWait s) := by
  unfold stepSendWait
  split
  · exact leaveSendWait_effect ⟨rfl, rfl, rfl, rfl, rfl, .inl rfl⟩
  · exact Effect.goto

theorem stepSendRead_effect : IfNext (Effect s) (stepSendRead s) := by
  unfold stepSendRead
  obtain e | ⟨u, -, e⟩ | ⟨u, e⟩ := rxRead_outcomes s
  · rw [e]; exact Effect.ends
  · obtain e | e | e := e <;> have hk := rxRead_untouched e <;> rw [e]
    · exact Effect.goto hk
    · exact leaveSendWait_effect hk
    · exact Effect.goto hk
  · rw [e]; trivial

theorem sendPass_effect (ho : s.op = .send) (hp : s.phase = .sendPass) : IfNext (Effect s) (stepPass s) := by
  refine stepPass_effect (fun r => ?_) (fun q pl r _ => ?_) (fun a r => ?_) (fun hf q a r => ?_)
  · rw [hp]; exact Effect.goto
  · rw [dataMeaning_send (s := { s with rx := r }) ho hp]
    exact Effect.of_untouched (hp := congrArg Phase.guarded hp)
  · rw [ackMeaning_send (s := { s with rx := r }) ho hp]
    exact Effect.of_untouched (hp := congrArg Phase.guarded hp)
  · rw [finMeaning_send (s := { s with rx := r }) ho hp]
    exact Effect.echoes (.inl rfl) (.inl hp) hf

theorem stepSendEcho_effect (hp : s.phase = .sendEcho) : Effect s (stepSendEcho s) :=
  chanWrite_effect (.of_writes (.close (.inr (.inl hp))))

theorem stepSendAdvance_effect (hp : s.phase = .sendAdvance) : Effect s (stepSendAdvance s) := by
  unfold stepSendAdvance
  split
  · exact Effect.of_writes (.advance hp)
  · exact Effect.of_writes (.advance hp)

/-! ### RECV -/

theorem drainTurn_phase {t : State} (h : drainTurn s = some t) : t.phase = s.phase := by rw [drainTurn_frame h]

/-- A turn of the drain, at either of its labels. -/
theorem drainTurn_effect {t : State} (hd : s.AtDrain) (h : drainTurn s = some t) : Effect s t := by
  refine .of_writes (.drain h) (hp := ?_)
  rw [drainTurn_phase h]
  obtain e | ⟨q, e⟩ := hd <;> rw [e] <;> rfl

theorem recvEntryTests_effect : Effect s (recvEntryTests s) := by
  unfold recvEntryTests
  split
  case isTrue => exact Effect.ends
  case isFalse hne =>
    split
    · split
      · exact Effect.ends
      · exact Effect.ends
    · exact Effect.receives (.inl rfl) (.inr hne)

theorem stepRecvDrain_effect (hp : s.phase = .recvDrain) : Effect s (stepRecvDrain s) := by
  unfold stepRecvDrain
  split
  case h_1 t h => exact drainTurn_effect (.inl hp) h
  case h_2 => exact recvEntryTests_effect

theorem stepRecvRedrain_effect {q : Seq} (hp : s.phase = .recvRedrain q) : Effect s (stepRecvRedrain q s) := by
  unfold stepRecvRedrain
  split
  case h_1 t h => exact drainTurn_effect (.inr ⟨q, hp⟩) h
  case h_2 => exact Effect.of_untouched

theorem stepRecvWait_effect (hp : s.phase = .recvWait) : IfNext (Effect s) (stepRecvWait s) := by
  unfold stepRecvWait
  obtain e | ⟨u, hu, e⟩ | ⟨u, e⟩ := rxRead_outcomes s
  · rw [e]; exact Effect.ends
  · obtain e | e | e := e <;> have hk := rxRead_untouched e <;> rw [e]
    · exact Effect.receives (.inl (hu.phase.trans hp)) (.inl (.inl hp)) hk
    · exact Effect.ends hk
    · exact Effect.receives (.inr rfl) (.inl (.inl hp)) (hk.goto .recvPass)
  · rw [e]; trivial

theorem recvDataArm_effect (q : Seq) {pl : List Byte} (hpl : pl.length ≤ s.cfg.maxp) (r : RxBuf) :
    Effect s (recvDataArm q pl { s with rx := r }) := by
  simp only [recvDataArm]
  split
  · exact Effect.of_writes (.store _ _ hpl)
  · exact Effect.of_untouched

theorem recvPass_effect (ho : s.op = .recv) (hp : s.phase = .recvPass) : IfNext (Effect s) (stepPass s) := by
  refine stepPass_effect (fun r => ?_) (fun q pl r hpl => ?_) (fun a r => ?_) (fun hf q a r => ?_)
  · rw [hp]; exact Effect.receives (.inl rfl) (.inl (.inr hp))
  · rw [dataMeaning_recv (s := { s with rx := r }) ho hp q hpl]
    exact recvDataArm_effect q hpl r
  · rw [ackMeaning_recv (s := { s with rx := r }) ho hp]
    exact Effect.receives (.inr hp) (.inl (.inr hp))
  · rw [finMeaning_recv (s := { s with rx := r }) ho hp]
    exact Effect.echoes (.inr rfl) (.inr hp) hf

theorem stepRecvReply_effect : Effect s (stepRecvReply s) := by
  refine chanWrite_effect ?_
  split
  case isTrue => exact Effect.ends
  case isFalse hne => exact Effect.receives (.inr rfl) (.inr hne)

theorem stepRecvEcho_effect (hp : s.phase = .recvEcho) : Effect s (stepRecvEcho s) :=
  chanWrite_effect (.of_writes (.close (.inr (.inr (.inl hp)))) ⟨rfl, rfl, rfl, rfl, rfl, .inr rfl⟩)

/-! ### CLOSE and WAIT -/

theorem runClose_effect {u : State} (h : Untouched s u) : Effect s (runClose u) := by
  unfold runClose
  split
  · exact Effect.ends h
  · exact Effect.of_untouched ⟨h.cfg, h.inited, h.conn, h.cap, h.outcnt, h.result⟩

theorem stepCloseAttempt_effect : Effect s (stepCloseAttempt s) := by
  unfold stepCloseAttempt
  split
  · exact Effect.of_untouched
  · exact Effect.goto

theorem stepCloseWait_effect (hp : s.phase = .closeWait) : IfNext (Effect s) (stepCloseWait s) := by
  unfold stepCloseWait
  obtain e | ⟨u, hu, e⟩ | ⟨u, e⟩ := rxRead_outcomes s
  · rw [e]; exact Effect.ends
  · obtain e | e | e := e <;> have hk := rxRead_untouched e <;> rw [e]
    · exact Effect.of_untouched hk (by rw [hu.phase, hp]; rfl)
    · exact Effect.goto hk
    · exact Effect.goto hk
  · rw [e]; trivial

theorem closePass_effect (ho : s.op = .close) (hp : s.phase = .closePass) : IfNext (Effect s) (stepPass s) := by
  refine stepPass_effect (fun r => ?_) (fun q pl r _ => ?_) (fun a r => ?_) (fun hf q a r => ?_)
  · rw [hp]; exact Effect.goto
  · rw [dataMeaning_close (s := { s with rx := r }) ho hp]
    exact Effect.of_untouched (hp := congrArg Phase.guarded hp)
  · rw [ackMeaning_close (s := { s with rx := r }) ho hp]
    exact Effect.of_untouched (hp := congrArg Phase.guarded hp)
  · rw [finMeaning_close (s := { s with rx := r }) ho hp]
    exact Effect.of_writes (.close (.inr (.inr (.inr ⟨hp, hf⟩)))) ⟨rfl, rfl, rfl, rfl, rfl, .inr rfl⟩

theorem stepWaitRead_effect : Effect s (stepWaitRead s) := by
  unfold stepWaitRead
  split
  · exact Effect.of_untouched
  · exact Effect.goto

theorem stepWaitPoll_effect : IfNext (Effect s) (stepWaitPoll s) := by
  unfold stepWaitPoll
  obtain ⟨-, e⟩ | ⟨-, e⟩ | ⟨bs, -, -, ⟨-, e⟩ | ⟨-, e⟩⟩ := chanRead_cases s <;> rw [e]
  · exact Effect.ends
  · exact Effect.goto
  · exact Effect.goto
  · trivial

theorem waitPass_effect (ho : s.op = .wait) (hp : s.phase = .waitPass) : IfNext (Effect s) (stepPass s) := by
  refine stepPass_effect (fun r => ?_) (fun q pl r _ => ?_) (fun a r => ?_) (fun hf q a r => ?_)
  · rw [hp]; exact Effect.goto
  · rw [dataMeaning_wait (s := { s with rx := r }) ho hp]; exact Effect.of_untouched
  · rw [ackMeaning_wait (s := { s with rx := r }) ho hp]; exact Effect.of_untouched
  · rw [finMeaning_wait (s := { s with rx := r }) ho hp]; exact Effect.of_untouched

/-! ### The step -/

theorem resume_effect (hp : s.phase.op = s.op) : IfNext (Effect s) (resume s) := by
  unfold resume
  cases h : s.phase <;> rw [h] at hp
  case none => trivial
  case init => exact Effect.of_writes (.init (.inl hp.symm) ..) ⟨rfl, rfl, rfl, rfl, rfl, .inr rfl⟩
  case reset => exact Effect.of_writes (.reset (.inl hp.symm)) ⟨rfl, rfl, rfl, rfl, rfl, .inr rfl⟩
  case sendEntry => exact runSend_effect ⟨rfl, rfl, rfl, rfl, rfl, .inl rfl⟩
  case sendRound => exact stepSendRound_effect
  case sendBurst j => exact stepSendBurst_effect j
  case sendWrite => exact chanWrite_effect Effect.goto
  case sendWait => exact stepSendWait_effect
  case sendRead => exact stepSendRead_effect
  case sendPass => exact sendPass_effect hp.symm h
  case sendEcho => exact stepSendEcho_effect h
  case sendAdvance => exact stepSendAdvance_effect h
  case sendDone => exact Effect.ends
  case recvEntry => exact Effect.of_writes (.recv _)
  case recvDrain => exact stepRecvDrain_effect h
  case recvWait => exact stepRecvWait_effect h
  case recvPass => exact recvPass_effect hp.symm h
  case recvRedrain => exact stepRecvRedrain_effect h
  case recvReply => exact stepRecvReply_effect
  case recvEcho => exact stepRecvEcho_effect h
  case closeEntry => exact runClose_effect ⟨rfl, rfl, rfl, rfl, rfl, .inl rfl⟩
  case closeAttempt => exact stepCloseAttempt_effect
  case closeWrite => exact chanWrite_effect Effect.of_untouched
  case closeWait => exact stepCloseWait_effect h
  case closePass => exact closePass_effect hp.symm h
  case closeExhausted => exact Effect.ends
  case waitEntry => exact Effect.of_untouched
  case waitRead => exact stepWaitRead_effect
  case waitPoll => exact stepWaitPoll_effect
  case waitPass => exact waitPass_effect hp.symm h
  case waitReply => exact chanWrite_effect Effect.goto
  case waitDone => exact Effect.ends

/-- The command an idle core takes, from the state it takes it in (R104). -/
theorem exec_command_effect {i : Instr} {c : HostCmd} {rest : List HostCmd} {t : State} (hi : i.isFrame = false)
    (hc : s.nextCommand = some i) (h : exec i (s.take c rest) = .next t) : Effect s t := by
  cases i with
  | data | ack | fin | flag11 => cases hi
  | init r m x =>
    cases guardLaunch_next h
    exact Effect.of_writes (.init (.inr ⟨r, m, x, hc⟩) ..) ⟨rfl, rfl, rfl, rfl, rfl, .inr rfl⟩
  | reset =>
    cases guardLaunch_next h
    exact Effect.of_writes (.reset (.inr hc)) ⟨rfl, rfl, rfl, rfl, rfl, .inr rfl⟩
  | send =>
    have hk := guardLaunch_next h
    split at hk <;> cases hk
    exact runSend_effect ⟨rfl, rfl, rfl, rfl, rfl, .inl rfl⟩
  | recv =>
    have hk := guardLaunch_next h
    split at hk <;> cases hk
    exact Effect.of_writes (.recv _)
  | close => cases guardLaunch_next h; exact runClose_effect ⟨rfl, rfl, rfl, rfl, rfl, .inl rfl⟩
  | wait => cases guardLaunch_next h; exact Effect.of_untouched
  | isclosed => cases guardLaunch_next h; exact Effect.ends
  | setclosed =>
    cases guardLaunch_next h
    exact Effect.of_writes (.close (.inl hc)) ⟨rfl, rfl, rfl, rfl, rfl, .inr rfl⟩

theorem stepIdle_effect {t : State} (ho : s.op = .idle) (h : stepIdle s = .next t) : Effect s t := by
  unfold stepIdle at h
  split at h
  case h_1 =>
    cases h
    exact ⟨⟨s, .nothing, ⟨rfl, rfl, rfl, rfl, rfl, .inl rfl⟩⟩, .waits ho rfl⟩
  case h_2 c rest hh =>
    exact exec_command_effect (decodeLaunch_isFrame _) (by simp [State.nextCommand, ho, hh]) h

/-- Everything one step can do to the registers of `Untouched`. -/
theorem step_effect {t : State} (h : step s = .next t) : Effect s t := by
  by_cases ho : s.op = .idle
  · exact stepIdle_effect ho (step_idle ho ▸ h)
  · obtain ⟨hp, h⟩ := busy_step ho h
    exact (resume_effect hp).elim h

end

end Sys2Proof.Machine
end

section
/-! PROOFS. What every step keeps of the Connection State, RECV's counters and `RESULT`, read off `step_effect`. -/

namespace Sys2Proof.Machine

/-! ### What each write does to each register -/

section
variable {s t u : State}

theorem State.startsOver_of_takesInit (h : s.TakesInit) : StartsOver s := by
  obtain h | ⟨r, w, x, h⟩ := h
  · exact .inl h
  · have ho : s.op = .idle := by
      by_contra hb
      simp [State.nextCommand, hb] at h
    exact .inr (.inr (.inr ⟨ho, r, w, x, h⟩))

theorem State.startsOver_of_takesReset (h : s.TakesReset) : StartsOver s :=
  h.elim (.inr ∘ .inl) (.inr ∘ .inr ∘ .inl)

/-- The two turns of the drain, one full and one partial (R130). -/
theorem drainTurn_some (h : drainTurn s = some t) :
    (t = drainFull s ∧ (s.conn.slot s.conn.wnd).len ≠ 0 ∧
        s.work.outcnt + (s.conn.slot s.conn.wnd).len ≤ s.work.cap) ∨
      t = drainPart (s.work.cap - s.work.outcnt) s := by
  obtain ⟨hn, -⟩ | ⟨hlt, hne, hle, hs⟩ | ⟨-, -, hs⟩ := drainTurn_cases s
  · cases hn.symm.trans h
  · exact .inl ⟨Option.some.inj (h.symm.trans hs), hne, by omega⟩
  · exact .inr (Option.some.inj (h.symm.trans hs))

theorem Writes.cfg (h : Writes s u) : u.cfg = s.cfg := by
  cases h with
  | drain h => rw [drainTurn_frame h]
  | _ => rfl

theorem Writes.result (h : Writes s u) : u.result = s.result := by
  cases h with
  | drain h => rw [drainTurn_frame h]
  | _ => rfl

theorem Writes.inited (h : Writes s u) : u.inited = s.inited ∨ (u.inited = true ∧ s.TakesInit) := by
  cases h with
  | init hs => exact .inr ⟨rfl, hs⟩
  | drain h => exact .inl (by rw [drainTurn_frame h])
  | _ => exact .inl rfl

theorem Writes.limits (h : Writes s u) :
    (u.conn.maxRetrans = s.conn.maxRetrans ∧ u.conn.maxTimeout = s.conn.maxTimeout ∧ u.conn.ctx = s.conn.ctx) ∨
      s.TakesInit := by
  cases h with
  | init hs => exact .inr hs
  | drain h => rw [drainTurn_frame h]; exact .inl ⟨rfl, rfl, rfl⟩
  | _ => exact .inl ⟨rfl, rfl, rfl⟩

theorem Writes.closed (h : Writes s u) :
    u.conn.closed = s.conn.closed ∨ (u.conn.closed = false ∧ StartsOver s) ∨ (u.conn.closed = true ∧ s.MayClose) := by
  cases h with
  | init hs => exact .inr (.inl ⟨rfl, State.startsOver_of_takesInit hs⟩)
  | reset hs => exact .inr (.inl ⟨rfl, State.startsOver_of_takesReset hs⟩)
  | close hs => exact .inr (.inr ⟨rfl, hs⟩)
  | drain h => exact .inl (by rw [drainTurn_frame h])
  | _ => exact .inl rfl

theorem Writes.seq (h : Writes s u) : u.conn.seq = s.conn.seq ∨ StartsOver s ∨ s.phase = .sendAdvance := by
  cases h with
  | init hs => exact .inr (.inl (State.startsOver_of_takesInit hs))
  | reset hs => exact .inr (.inl (State.startsOver_of_takesReset hs))
  | advance hs => exact .inr (.inr hs)
  | drain h => exact .inl (by rw [drainTurn_frame h])
  | _ => exact .inl rfl

/-! ### The window -/

theorem Untouched.window (hk : Untouched s t) (h : Window s) : Window t := by
  rw [Window, hk.cfg, hk.conn]
  exact h

/-- No slot is longer than `MAXP`, the empty slot beyond the window among them. -/
theorem slot_len_le (h : Window s) (i : Nat) : (s.conn.slot i).len ≤ s.cfg.maxp := by
  obtain ⟨-, -, -, hlen⟩ := h
  by_cases hi : i < s.conn.win.length
  · rw [Conn.slot, List.getD_eq_getElem _ _ hi]
    exact hlen _ (List.getElem_mem hi)
  · rw [Conn.slot, List.getD_eq_default _ _ (Nat.le_of_not_lt hi)]
    exact Nat.zero_le _

@[simp] theorem slot_setSlot_same {c : Conn} {i : Nat} (h : i < c.win.length) (v : Slot) :
    (c.setSlot i v).slot i = v := by
  simp [Conn.slot, Conn.setSlot, h]

/-- A slot no longer than `MAXP` put anywhere keeps the window's shape, wherever in the window the cursor moves. -/
theorem window_setSlot (h : Window s) (i : Nat) {v : Slot} (hv : v.len ≤ s.cfg.maxp)
    (hc : t.cfg = s.cfg := by rfl) (hw : t.conn.win = (s.conn.setSlot i v).win := by rfl)
    (hn : t.conn.wnd < s.cfg.w) : Window t := by
  obtain ⟨hl, hlen, -, hle⟩ := h
  rw [Window, hc, hw]
  refine ⟨hl, List.length_set.trans hlen, hn, fun x hx => ?_⟩
  obtain hm | rfl := List.mem_or_eq_of_mem_set hx
  · exact hle x hm
  · exact hv

theorem window_restarted (h : Window s) (hc : t.cfg = s.cfg := by rfl)
    (hw : t.conn.win = s.conn.restarted.win := by rfl) (hn : t.conn.wnd = 0 := by rfl) : Window t := by
  obtain ⟨hl, hlen, -, -⟩ := h
  rw [Window, hc, hw, hn]
  refine ⟨hl, List.length_map _ |>.trans hlen, slots_pos hl, fun x hx => ?_⟩
  obtain ⟨v, -, rfl⟩ := List.mem_map.mp hx
  exact Nat.zero_le _

theorem window_drainTurn (h : Window s) (ht : drainTurn s = some t) : Window t := by
  obtain ⟨hl, -, hwnd, -⟩ := id h
  obtain ⟨rfl, -, -⟩ | rfl := drainTurn_some ht
  · exact window_setSlot h s.conn.wnd (Nat.zero_le _) (hn := Nat.mod_lt _ (slots_pos hl))
  · exact window_setSlot h s.conn.wnd ((Nat.sub_le _ _).trans (slot_len_le h _)) (hn := hwnd)

theorem Writes.window (hw : Writes s u) (h : Window s) : Window u := by
  obtain ⟨-, -, hwnd, -⟩ := id h
  cases hw with
  | init => exact window_restarted h
  | reset => exact window_restarted h
  | store i v hv => exact window_setSlot h i hv (hn := hwnd)
  | drain ht => exact window_drainTurn h ht
  | nothing | close | advance | recv => exact h

/-! ### `ACK` and `WND` -/

/-- A turn of the drain moves `ACK` and `WND` by 1 and consumes the head slot whole, or leaves both (R31 d, R130). -/
theorem drainTurn_ackWnd (ht : drainTurn s = some t) :
    (t.conn.ack = s.conn.ack ∧ t.conn.wnd = s.conn.wnd) ∨
      (t.conn.ack = s.conn.ack + 1 ∧ t.conn.wnd = (s.conn.wnd + 1) % s.cfg.w ∧
        (s.conn.slot s.conn.wnd).len ≠ 0 ∧ (t.conn.slot s.conn.wnd).len = 0 ∧
        t.work.outcnt = s.work.outcnt + (s.conn.slot s.conn.wnd).len) := by
  obtain ⟨rfl, hne, -⟩ | rfl := drainTurn_some ht
  · exact .inr ⟨rfl, rfl, hne, congrArg Slot.len (slot_setSlot_same (slot_lt_of_len hne) _), rfl⟩
  · exact .inl ⟨rfl, rfl⟩

/-! ### RECV's output -/

theorem outcnt_le_cap_drainTurn (ht : drainTurn s = some t) :
    t.work.outcnt ≤ t.work.cap := by
  obtain ⟨rfl, -, hle⟩ | rfl := drainTurn_some ht
  · exact hle
  · exact le_rfl

theorem Writes.outcnt_le_cap (hw : Writes s u) (h : s.work.outcnt ≤ s.work.cap) : u.work.outcnt ≤ u.work.cap := by
  cases hw with
  | recv n => exact Nat.zero_le n
  | drain ht => exact outcnt_le_cap_drainTurn ht
  | _ => exact h

end

/-! ### What every step keeps -/

/-- Settles O48: only INIT, RESET, a stored frame and the drain write the window, and each keeps its shape. -/
theorem stepKeepsTheWindow : Obligations.StepKeepsTheWindow := by
  intro s t hs h
  obtain ⟨⟨u, hw, hk⟩, -⟩ := step_effect h
  exact hk.window (hw.window hs)

/-- Settles O56: outside INIT and RESET only a turn of the drain writes `ACK` or `WND`. -/
theorem ackAndWndMoveTogether : Obligations.AckAndWndMoveTogether := by
  intro s t _ h
  obtain ⟨⟨u, hw, hk⟩, -⟩ := step_effect h
  rw [hk.conn, hk.outcnt]
  cases hw with
  | init hs => exact .inl (State.startsOver_of_takesInit hs)
  | reset hs => exact .inl (State.startsOver_of_takesReset hs)
  | drain ht => exact .inr (drainTurn_ackWnd ht)
  | nothing | close | advance | recv | store => exact .inr (.inl ⟨rfl, rfl⟩)

/-- Settles O53: only RECV's start and the drain write the counters, and RECV comes to a place where it may still receive only from
another one or with `OUTCNT` ≠ `CAP`. -/
theorem stepKeepsOutputInBounds : Obligations.StepKeepsOutputInBounds := by
  intro s t hs h
  obtain ⟨hle, hlt⟩ := id hs
  obtain ⟨⟨u, hw, hk⟩, he⟩ := step_effect h
  refine ⟨?_, fun hp => ?_⟩
  · rw [hk.outcnt, hk.cap]
    exact hw.outcnt_le_cap hle
  · cases he with
    | free hf => exact absurd (State.Receives.guarded hp) (by simp [hf])
    | waits _ e => subst e; exact hlt hp
    | receives _ hk' hr =>
      rw [hk'.outcnt, hk'.cap]
      obtain hr | hne := hr
      · exact hlt hr
      · exact Nat.lt_of_le_of_ne hle hne
    | echoes hq => exact absurd hq (State.Receives.not_echoes hp)

/-- Settles O55: `step_effect` names the one write of a step and the label's condition, and each write names its place. -/
theorem onlyTheNamedWriters : Obligations.OnlyTheNamedWriters := by
  intro s t h
  obtain ⟨⟨u, hw, hk⟩, he⟩ := step_effect h
  rw [hk.cfg, hk.inited, hk.conn]
  refine ⟨hw.cfg, fun hs => ?_, fun hs hu => ?_, hw.limits, fun hs hu => ?_, fun hs hu => ?_, fun hb hp => ?_,
    hw.seq.resolve_left⟩
  · obtain e | ⟨e, -⟩ := hw.inited
    · exact e.trans hs
    · exact e
  · obtain e | ⟨-, hi⟩ := hw.inited
    · rw [e, hs] at hu; cases hu
    · exact hi
  · obtain e | ⟨-, hr⟩ | ⟨e, -⟩ := hw.closed
    · rw [e, hs] at hu; cases hu
    · exact hr
    · rw [e] at hu; cases hu
  · obtain e | ⟨e, -⟩ | ⟨-, hm⟩ := hw.closed
    · rw [e, hs] at hu; cases hu
    · rw [e] at hu; cases hu
    · exact hm
  · cases he with
    | free hf => exact absurd (State.Echoes.guarded hp) (by simp [hf])
    | waits hi e => exact absurd (e ▸ hi) hb
    | receives hr => exact absurd hp hr.not_echoes
    | echoes _ hs hf => exact ⟨hs, hf⟩

/-- Settles O57: no write is to `RESULT`, so it changes where the command ends; an idle core with no command waiting changes
nothing. -/
theorem resultIsWrittenAtTheEnd : Obligations.ResultIsWrittenAtTheEnd := by
  intro s t h hne
  obtain ⟨⟨u, hw, hk⟩, -⟩ := step_effect h
  refine ⟨hk.result.resolve_left fun e => hne (e.trans hw.result), ?_⟩
  by_contra hcon
  push Not at hcon
  obtain ⟨ho, hh⟩ := hcon
  rw [step_waits ho hh] at h
  cases h
  exact hne rfl

end Sys2Proof.Machine
end

section
/-! PROOFS. The bytes of `RXBUF` (R59), and the answer that is too long for it (R47). -/

namespace Sys2Proof.Memory

/-- The bytes of a range, but for its first `k`, are those of the range that begins `k` offsets further up. -/
theorem drop_readBytes (m : Memory) (a n k : Nat) : (readBytes m a n).drop k = readBytes m (a + k) (n - k) := by
  apply List.ext_getElem
  · simp
  · intro i h1 h2
    rw [List.getElem_drop, getElem_readBytes, getElem_readBytes, Nat.add_assoc]

end Sys2Proof.Memory

namespace Sys2Proof.Machine

/-! ### RXBUF -/

@[simp] theorem RxBuf.append_bytes (bs : List Byte) (r : RxBuf) : (r.append bs).bytes = r.bytes ++ bs := by
  have hold : (r.buf.writeBytes r.fill bs).readBytes 0 r.fill = r.buf.readBytes 0 r.fill :=
    Memory.readBytes_writeBytes_disjoint (.inl (by omega))
  simp only [RxBuf.bytes, RxBuf.append, Memory.readBytes_add, hold, Nat.zero_add, Memory.readBytes_writeBytes_same]

@[simp] theorem RxBuf.consume_bytes (n : Nat) (r : RxBuf) : (r.consume n).bytes = r.bytes.drop n := by
  have hmoved := Memory.readBytes_writeBytes_same r.buf 0 (r.buf.readBytes n (r.fill - n))
  rw [Memory.length_readBytes] at hmoved
  simp only [RxBuf.bytes, RxBuf.consume, Memory.drop_readBytes, Nat.zero_add, hmoved]

/-- Settles O13: an append leaves the older bytes alone, and a consume moves the later ones to the front. -/
theorem rxbufOperations : Obligations.RxbufOperations :=
  ⟨fun r bs => ⟨r.append_bytes bs, rfl⟩, fun r n _ => ⟨r.consume_bytes n, rfl⟩, fun _ => ⟨rfl, rfl⟩⟩

/-! ### The overlong answer -/

/-- A scripted answer is what the channel answers, whatever `max_len` was asked for (R58). -/
theorem readAnswer_of_script {s : State} {a : ReadAnswer} {rest : List ReadAnswer} (h : s.chan.reads = a :: rest)
    (n : Nat) : s.readAnswer n = a := by
  simp only [State.readAnswer, h]

/-- An answer longer than `RXCAP - RXFILL` is used up, and nothing is appended (R47, U7). -/
theorem chanRead_of_tooLong {s : State} {bs : List Byte} (ha : s.readAnswer s.room = .bytes bs)
    (hl : s.room < bs.length) : chanRead s = (.tooLong, s.logRead s.room) := by
  simp only [chanRead, ha, if_pos hl]

theorem rxRead_of_tooLong {s : State} {bs : List Byte} (ha : s.readAnswer s.room = .bytes bs)
    (hl : s.room < bs.length) : rxRead s = (.tooLong, s.logRead s.room) := by
  simp only [rxRead, chanRead_of_tooLong ha hl]

/-- Settles O6: SEND, RECV and CLOSE read by RXREAD, WAIT by the port itself, and each refuses what these call too long. -/
theorem overlongAnswerIsRefused : Obligations.OverlongAnswerIsRefused := by
  intro s bs rest hr hl hp
  have hport := chanRead_of_tooLong (readAnswer_of_script hr s.room) hl
  have hrx := rxRead_of_tooLong (readAnswer_of_script hr s.room) hl
  obtain ⟨ho, hp⟩ | ⟨ho, hp⟩ | ⟨ho, hp⟩ | ⟨ho, hp⟩ := hp <;> rw [step_busy (by simp [ho]) (by simp [ho, hp, Phase.op])]
  · simp only [resume, hp, stepSendRead, hrx]
  · simp only [resume, hp, stepRecvWait, hrx]
  · simp only [resume, hp, stepCloseWait, hrx]
  · simp only [resume, hp, stepWaitPoll, hport]

end Sys2Proof.Machine
end

section
/-! PROOFS. What a step can do to each byte space (R45, R49). -/

namespace Sys2Proof.Machine

/-! ### The spaces of the window's slots -/

/-- The space of every slot is in canonical form. -/
def Conn.SlotsCanonical (c : Conn) : Prop := ∀ v ∈ c.win, v.data.wf = true

theorem Conn.SlotsCanonical.slot {c : Conn} (h : c.SlotsCanonical) (i : Nat) : (c.slot i).data.wf = true := by
  by_cases hi : i < c.win.length
  · rw [Conn.slot, List.getD_eq_getElem _ _ hi]
    exact h _ (List.getElem_mem hi)
  · rw [Conn.slot, List.getD_eq_default _ _ (Nat.le_of_not_lt hi)]
    rfl

theorem Conn.SlotsCanonical.setSlot {c : Conn} (h : c.SlotsCanonical) (i : Nat) {v : Slot} (hv : v.data.wf = true) :
    (c.setSlot i v).SlotsCanonical := by
  intro x hx
  obtain hm | rfl := List.mem_or_eq_of_mem_set hx
  · exact h x hm
  · exact hv

theorem Conn.SlotsCanonical.clearSlots {c : Conn} (h : c.SlotsCanonical) : c.clearSlots.SlotsCanonical := by
  intro x hx
  obtain ⟨v, hv, rfl⟩ := List.mem_map.mp hx
  exact h v hv

/-! ### What a step does to the spaces -/

theorem IfNext.imp {P Q : State → Prop} {o : Outcome} (h : IfNext P o) (hpq : ∀ {t}, P t → Q t) : IfNext Q o := by
  cases o with
  | next t => exact hpq h
  | fault | refused => trivial

/-- The core's own spaces stay canonical, the host's commands and `TXDATA` are the same, and `OUT` is written only where `OUTCNT`
moves over what is written (R45, R49). What a written-out next state leaves alone holds by computation. -/
structure SpacesKept (s t : State) : Prop where
  rx : s.rx.buf.wf = true → t.rx.buf.wf = true := by exact id
  txbuf : s.txbuf.wf = true → t.txbuf.wf = true := by exact id
  win : s.conn.SlotsCanonical → t.conn.SlotsCanonical := by exact id
  txdata : t.txdata = s.txdata := by rfl
  host : t.host = s.host := by rfl
  out : t.out = s.out ∨
    ∃ bs, t.out = s.out.writeBytes s.work.outcnt bs ∧ t.work.outcnt = s.work.outcnt + bs.length := by exact .inl rfl

theorem SpacesKept.canonical {s t : State} (h : SpacesKept s t) (hs : Canonical s) : Canonical t := by
  obtain ⟨hrx, htx, hd, ho, hw, hh⟩ := hs
  refine ⟨h.rx hrx, h.txbuf htx, h.txdata ▸ hd, ?_, h.win hw, h.host ▸ hh⟩
  obtain e | ⟨bs, e, -⟩ := h.out <;> rw [e]
  · exact ho
  · exact Memory.writeBytes_wf _ _ ho

theorem SpacesKept.goto {s u : State} (h : SpacesKept s u) (p : Phase) : SpacesKept s (u.goto p) := { h with }

theorem SpacesKept.endWith {s u : State} (h : SpacesKept s u) (v : Word) : SpacesKept s (u.endWith v) := { h with }

/-! ### The shared operations -/

section
variable {s : State}

theorem RxBuf.append_wf {r : RxBuf} (bs : List Byte) (h : r.buf.wf = true) : (r.append bs).buf.wf = true :=
  Memory.writeBytes_wf _ _ h

theorem RxBuf.consume_wf {r : RxBuf} (n : Nat) (h : r.buf.wf = true) : (r.consume n).buf.wf = true :=
  Memory.writeBytes_wf _ _ h

/-- A step that ends with a frame in `TXBUF` has written no other space, where what it did before wrote none (R95). -/
theorem txFrame_spaces {u : State} (h : SpacesKept s u := by exact {}) (flag : Byte) (seq ack : Seq) (pl : List Byte)
    (p : Phase) : SpacesKept s (txFrame flag seq ack pl p u) :=
  { h with txbuf := fun hs => Memory.writeBytes_wf _ _ (h.txbuf hs) }

/-- A write followed by `k` does to the spaces what `k` does: the transaction itself writes none (R48, R95). -/
theorem chanWrite_spaces {k : State → State} (hk : SpacesKept s (k (s.logWrite s.txBytes)) := by exact {}) :
    SpacesKept s (chanWrite k s) := by
  obtain ⟨-, e⟩ | ⟨-, e⟩ := chanWrite_cases k s <;> rw [e]
  · exact hk
  · exact {}

/-- A read writes `RXBUF` only (R47, R59). -/
theorem chanRead_spaces {e : ReadEvent} {u : State} (h : chanRead s = (e, u)) : SpacesKept s u := by
  obtain ⟨-, hr⟩ | ⟨-, hr⟩ | ⟨bs, -, -, ⟨-, hr⟩ | ⟨-, hr⟩⟩ := chanRead_cases s <;> cases hr.symm.trans h
  case inr.inr.inl => exact { rx := RxBuf.append_wf bs }
  all_goals exact {}

/-- RXREAD writes `RXBUF` only (R99). -/
theorem rxRead_spaces {e : RxResult} {u : State} (h : rxRead s = (e, u)) : SpacesKept s u := by
  obtain ⟨-, hr⟩ | ⟨-, hr⟩ | ⟨bs, -, -, ⟨-, hr⟩ | ⟨-, hr⟩⟩ := rxRead_cases s <;> cases hr.symm.trans h
  case inr.inr.inl => exact { rx := RxBuf.append_wf bs }
  all_goals exact {}

/-- A turn of the drain writes the head slot, and to `OUT` as many bytes as `OUTCNT` moves by (R130). -/
theorem drainTurn_spaces {t : State} (h : drainTurn s = some t) : SpacesKept s t := by
  obtain ⟨e, -⟩ | ⟨-, -, -, e⟩ | ⟨hlt, -, e⟩ := drainTurn_cases s <;> cases e.symm.trans h
  case inr.inl =>
    exact {
      win := fun hs => hs.setSlot _ (hs.slot _)
      out := .inr ⟨_, rfl, by simp [drainFull, Slot.bytes]⟩ }
  case inr.inr =>
    exact {
      win := fun hs => hs.setSlot _ (Memory.writeBytes_wf _ _ (hs.slot _))
      out := .inr ⟨_, rfl, by simp only [drainPart, Memory.length_readBytes]; omega⟩ }

/-! ### The phases between -/

theorem stepSendRound_spaces : SpacesKept s (stepSendRound s) := by
  unfold stepSendRound
  split <;> exact {}

theorem stepSendBurst_spaces (j : Nat) : SpacesKept s (stepSendBurst j s) := by
  unfold stepSendBurst
  split
  · split
    · exact {}
    · exact txFrame_spaces ..
  · exact {}

theorem leaveSendWait_spaces {u : State} (h : SpacesKept s u) : SpacesKept s (leaveSendWait u) := by
  unfold leaveSendWait
  split
  · exact h.endWith _
  · exact h.goto _

theorem stepSendWait_spaces : SpacesKept s (stepSendWait s) := by
  unfold stepSendWait
  split
  · exact leaveSendWait_spaces {}
  · exact {}

theorem stepSendAdvance_spaces : SpacesKept s (stepSendAdvance s) := by
  unfold stepSendAdvance
  split <;> exact {}

theorem stepSendRead_spaces : IfNext (SpacesKept s) (stepSendRead s) := by
  unfold stepSendRead
  split <;> rename_i h
  · exact rxRead_spaces h
  · exact (rxRead_spaces h).goto _
  · exact leaveSendWait_spaces (rxRead_spaces h)
  · exact (rxRead_spaces h).goto _
  · trivial

theorem recvEntryTests_spaces : SpacesKept s (recvEntryTests s) := by
  unfold recvEntryTests
  split
  · exact {}
  · split
    · split <;> exact {}
    · exact {}

theorem stepRecvDrain_spaces : SpacesKept s (stepRecvDrain s) := by
  unfold stepRecvDrain
  split
  case h_1 t h => exact drainTurn_spaces h
  case h_2 => exact recvEntryTests_spaces

theorem stepRecvRedrain_spaces (q : Seq) : SpacesKept s (stepRecvRedrain q s) := by
  unfold stepRecvRedrain
  split
  case h_1 t h => exact drainTurn_spaces h
  case h_2 => exact txFrame_spaces ..

theorem stepRecvWait_spaces : IfNext (SpacesKept s) (stepRecvWait s) := by
  unfold stepRecvWait
  split <;> rename_i h
  · exact rxRead_spaces h
  · exact rxRead_spaces h
  · exact (rxRead_spaces h).endWith _
  · exact (rxRead_spaces h).goto _
  · trivial

theorem stepRecvReply_spaces : SpacesKept s (stepRecvReply s) := by
  refine chanWrite_spaces ?_
  split <;> exact {}

theorem stepCloseAttempt_spaces : SpacesKept s (stepCloseAttempt s) := by
  unfold stepCloseAttempt
  split
  · exact txFrame_spaces ..
  · exact {}

theorem stepCloseWait_spaces : IfNext (SpacesKept s) (stepCloseWait s) := by
  unfold stepCloseWait
  split <;> rename_i h
  · exact rxRead_spaces h
  · exact rxRead_spaces h
  · exact (rxRead_spaces h).goto _
  · exact (rxRead_spaces h).goto _
  · trivial

theorem stepWaitRead_spaces : SpacesKept s (stepWaitRead s) := by
  unfold stepWaitRead
  split <;> exact {}

theorem stepWaitPoll_spaces : IfNext (SpacesKept s) (stepWaitPoll s) := by
  unfold stepWaitPoll
  split <;> rename_i h
  · exact chanRead_spaces h
  · exact (chanRead_spaces h).goto _
  · exact (chanRead_spaces h).goto _
  · trivial

/-! ### The commands -/

theorem runInit_spaces : SpacesKept s (runInit s) := { win := fun hs => hs.clearSlots }

theorem runReset_spaces : SpacesKept s (runReset s) := { win := fun hs => hs.clearSlots }

theorem runSend_spaces : SpacesKept s (runSend s) := by
  unfold runSend
  split <;> exact {}

theorem runClose_spaces : SpacesKept s (runClose s) := by
  unfold runClose
  split <;> exact {}

/-- What holds of a command's next state holds where the launch test lets it pass. -/
theorem ifNext_guardLaunch {P : State → Prop} {k : Outcome} {b : Bool} (h : IfNext P k) :
    IfNext P (guardLaunch b s k) := by
  obtain ⟨-, -, e⟩ | ⟨-, e⟩ | ⟨-, -, -, e⟩ := guardLaunch_cases b s k <;> rw [e]
  · exact h
  · trivial
  · trivial

theorem ifNext_guardLaunch_next {P : State → Prop} {t : State} {b : Bool} (h : P t) :
    IfNext P (guardLaunch b s (.next t)) := ifNext_guardLaunch h

theorem execSend_spaces (n : Word) : IfNext (SpacesKept s) (execSend n s) := by
  refine ifNext_guardLaunch ?_
  split
  · exact { runSend_spaces with }
  · trivial

theorem execRecv_spaces (n : Word) : IfNext (SpacesKept s) (execRecv n s) := by
  refine ifNext_guardLaunch ?_
  split
  · exact {}
  · trivial

/-! ### The meanings of the frames -/

theorem recvDataArm_spaces (q : Seq) (pl : List Byte) : SpacesKept s (recvDataArm q pl s) := by
  simp only [recvDataArm]
  split
  · exact { win := fun hs => hs.setSlot _ (Memory.writeBytes_wf _ _ (hs.slot _)) }
  · exact txFrame_spaces ..

theorem dataMeaning_spaces (q : Seq) (pl : List Byte) : IfNext (SpacesKept s) (dataMeaning q pl s) := by
  unfold dataMeaning
  split
  case h_2 =>
    split
    · exact recvDataArm_spaces q pl
    · trivial
  case h_4 => exact txFrame_spaces ..
  all_goals exact {}

theorem ackMeaning_spaces (a : Seq) : IfNext (SpacesKept s) (ackMeaning a s) := by
  unfold ackMeaning
  split
  case h_4 => exact txFrame_spaces ..
  all_goals exact {}

theorem finMeaning_spaces (q a : Seq) : IfNext (SpacesKept s) (finMeaning q a s) := by
  unfold finMeaning
  split
  case h_3 => exact {}
  case h_5 => exact {}
  all_goals exact txFrame_spaces ..

/-! ### The step -/

/-- No instruction's meaning writes more than `SpacesKept` lets it. -/
theorem exec_spaces (i : Instr) : IfNext (SpacesKept s) (exec i s) := by
  cases i with
  | data q _ pl => exact dataMeaning_spaces q pl
  | ack _ a _ => exact ackMeaning_spaces a
  | fin q a _ => exact finMeaning_spaces q a
  | flag11 q a pl =>
    cases hf : s.cfg.flag11 with
    | ack => rw [exec_flag11_ack hf]; exact ackMeaning_spaces a
    | fin => rw [exec_flag11_fin hf]; exact finMeaning_spaces q a
  | init => exact ifNext_guardLaunch_next { runInit_spaces with }
  | reset => exact ifNext_guardLaunch_next { runReset_spaces with }
  | send n => exact execSend_spaces n
  | recv n => exact execRecv_spaces n
  | close => exact ifNext_guardLaunch_next { runClose_spaces with }
  | wait => exact ifNext_guardLaunch_next {}
  | isclosed => exact ifNext_guardLaunch_next {}
  | setclosed => exact ifNext_guardLaunch_next {}

/-- One turn of the decode pass: NEXTFRAME writes `RXBUF` only, and then it is the frame's meaning (R100, R101). -/
theorem stepPass_spaces : IfNext (SpacesKept s) (stepPass s) := by
  obtain ⟨-, e⟩ | ⟨-, -, e⟩ | ⟨p, used, -, e⟩ := stepPass_cases s
  · rw [e]; exact {}
  · rw [e]; exact {}
  · have h := exec_spaces (s := { s with rx := s.rx.consume used }) p.instr
    rw [← e] at h
    exact h.imp fun h => { h with rx := fun hs => h.rx (RxBuf.consume_wf used hs) }

theorem resume_spaces : IfNext (SpacesKept s) (resume s) := by
  unfold resume
  cases s.phase
  case none => trivial
  case init => exact runInit_spaces
  case reset => exact runReset_spaces
  case sendEntry => exact runSend_spaces
  case sendRound => exact stepSendRound_spaces
  case sendBurst j => exact stepSendBurst_spaces j
  case sendWrite => exact chanWrite_spaces
  case sendWait => exact stepSendWait_spaces
  case sendRead => exact stepSendRead_spaces
  case sendPass => exact stepPass_spaces
  case sendEcho => exact chanWrite_spaces
  case sendAdvance => exact stepSendAdvance_spaces
  case sendDone => exact {}
  case recvEntry => exact {}
  case recvDrain => exact stepRecvDrain_spaces
  case recvWait => exact stepRecvWait_spaces
  case recvPass => exact stepPass_spaces
  case recvRedrain q => exact stepRecvRedrain_spaces q
  case recvReply => exact stepRecvReply_spaces
  case recvEcho => exact chanWrite_spaces
  case closeEntry => exact runClose_spaces
  case closeAttempt => exact stepCloseAttempt_spaces
  case closeWrite => exact chanWrite_spaces
  case closeWait => exact stepCloseWait_spaces
  case closePass => exact stepPass_spaces
  case closeExhausted => exact {}
  case waitEntry => exact {}
  case waitRead => exact stepWaitRead_spaces
  case waitPoll => exact stepWaitPoll_spaces
  case waitPass => exact stepPass_spaces
  case waitReply => exact chanWrite_spaces
  case waitDone => exact {}

end

/-- The host presents spaces in canonical form with its command (R49). -/
theorem canonical_take {s : State} {c : HostCmd} {rest : List HostCmd} (hs : Canonical s) (hh : s.host = c :: rest) :
    Canonical (s.take c rest) := by
  obtain ⟨hrx, htx, -, -, hw, hcmds⟩ := hs
  rw [hh] at hcmds
  obtain ⟨⟨hd, ho⟩, hrest⟩ := List.forall_mem_cons.mp hcmds
  exact ⟨hrx, htx, hd, ho, hw, hrest⟩

/-- Settles O50: an idle core takes the host's canonical spaces, and any other write is one `SpacesKept` names. -/
theorem stepKeepsSpacesCanonical : Obligations.StepKeepsSpacesCanonical := by
  intro s t hs h
  by_cases ho : s.op = .idle
  · rw [step_idle ho, stepIdle] at h
    split at h
    case h_1 => cases h; exact hs
    case h_2 c rest hh => exact ((exec_spaces _).elim h).canonical (canonical_take hs hh)
  · exact (resume_spaces.elim (busy_step ho h).2).canonical hs

/-- Settles O58: what a busy step writes to `OUT` lies between the old and the new `OUTCNT`. -/
theorem hostSpacesAreKept : Obligations.HostSpacesAreKept := by
  intro s t hb h
  have hk := resume_spaces.elim (busy_step hb h).2
  refine ⟨hk.txdata, fun a ha => ?_⟩
  obtain e | ⟨bs, e, hn⟩ := hk.out <;> rw [e]
  rw [hn] at ha
  exact Memory.read_writeBytes_outside ha

end Sys2Proof.Machine
end

section
/-! PROOFS. The two round trips of the wire frame (R92, R93), and those of both encodings together (R60, R74, R75). -/

namespace Sys2Proof.Machine

/-! ### The bytes of a frame (R60) -/

theorem take_concat_byteAt {bs : List Byte} {i : Nat} (h : i < bs.length) :
    bs.take i ++ [byteAt bs i] = bs.take (i + 1) := by
  rw [byteAt, List.getD_eq_getElem _ _ h, List.take_concat_get' bs i h]

theorem byteAt_append_right (xs ys : List Byte) (i : Nat) : byteAt (xs ++ ys) (xs.length + i) = byteAt ys i := by
  rw [byteAt, List.getD_append_right _ _ _ _ (Nat.le_add_right ..), Nat.add_sub_cancel_left, byteAt]

/-- The first seven bytes of any sequence are the header of the fields DECODE reads from them (R60). -/
theorem take_seven_eq_header {bs : List Byte} (h : 7 ≤ bs.length) :
    bs.take 7 = header (byteAt bs 0) (be16 (byteAt bs 1) (byteAt bs 2)) (be16 (byteAt bs 3) (byteAt bs 4))
      (be16 (byteAt bs 5) (byteAt bs 6)).toNat := by
  match bs, h with
  | _ :: _ :: _ :: _ :: _ :: _ :: _ :: _, _ => simp [header, byteAt]

/-- The bytes of a frame the checksum covers: header and payload (R65). -/
def checkedBytes (flag : Byte) (seq ack : Seq) (payload : List Byte) : List Byte :=
  header flag seq ack payload.length ++ payload

@[simp] theorem length_checkedBytes (flag : Byte) (seq ack : Seq) (payload : List Byte) :
    (checkedBytes flag seq ack payload).length = 7 + payload.length := by
  simp [checkedBytes]

theorem encodeFrame_eq (flag : Byte) (seq ack : Seq) (payload : List Byte) :
    encodeFrame flag seq ack payload = checkedBytes flag seq ack payload ++
      [hiByte (csum (checkedBytes flag seq ack payload)), loByte (csum (checkedBytes flag seq ack payload))] := rfl

/-! ### From the bytes to the packet and back (R92, R93) -/

section
variable {c : Config} {bs : List Byte} {p : Packet} {used : Nat}

/-- An accepted frame but for its checksum field is the header and payload of its tuple. -/
theorem take_eq_checkedBytes (h : decodeFrame c bs = .packet p used) :
    bs.take (used - 2) = checkedBytes p.flag p.seq p.ack p.payload := by
  obtain ⟨rfl, rfl, -, -, hle, -⟩ := decodeFrame_packet h
  simp only [checkedBytes]
  generalize hn : (be16 (byteAt bs 5) (byteAt bs 6)).toNat = n at hle ⊢
  have hlen : ((bs.drop 7).take n).length = n := by
    rw [List.length_take, List.length_drop]; omega
  rw [show n + 9 - 2 = 7 + n by omega, List.take_add, take_seven_eq_header (by omega), hlen, hn]

/-- An accepted frame is ENCODE of its tuple: the checksum field is the one ENCODE computes. -/
theorem take_eq_encodeFrame (h : decodeFrame c bs = .packet p used) :
    bs.take used = encodeFrame p.flag p.seq p.ack p.payload := by
  obtain ⟨-, rfl, -, -, hle, hcrc⟩ := decodeFrame_packet h
  have hchecked := take_eq_checkedBytes h
  generalize (be16 (byteAt bs 5) (byteAt bs 6)).toNat = n at hle hcrc hchecked ⊢
  calc bs.take (n + 9)
      = bs.take (n + 7) ++ [byteAt bs (n + 7), byteAt bs (n + 8)] := by
        rw [← take_concat_byteAt (by omega), ← take_concat_byteAt (by omega), List.append_assoc]; rfl
    _ = encodeFrame p.flag p.seq p.ack p.payload := by
        rw [encodeFrame_eq, ← hchecked, hcrc, hiByte_be16, loByte_be16]; rfl

end

section
variable (flag : Byte) (seq ack : Seq) (payload rest : List Byte)

/-- The length field of a frame in front of any bytes (R64). -/
theorem lenField_encodeFrame_append (h : payload.length ≤ 65535) :
    (be16 (byteAt (encodeFrame flag seq ack payload ++ rest) 5)
      (byteAt (encodeFrame flag seq ack payload ++ rest) 6)).toNat = payload.length := by
  have hlen : BitVec.toNat (.ofNat 16 payload.length) = payload.length := by
    rw [BitVec.toNat_ofNat, Nat.mod_eq_of_lt (by omega)]
  exact (congrArg BitVec.toNat (be16_hiByte_loByte _)).trans hlen

/-- DECODE sums the bytes ENCODE summed (R65). -/
theorem take_encodeFrame_append :
    (encodeFrame flag seq ack payload ++ rest).take (7 + payload.length) = checkedBytes flag seq ack payload := by
  rw [encodeFrame_eq, List.append_assoc]
  exact List.take_left' (length_checkedBytes ..)

/-- The checksum field of a frame in front of any bytes (R65). -/
theorem crcField_encodeFrame_append :
    be16 (byteAt (encodeFrame flag seq ack payload ++ rest) (7 + payload.length))
      (byteAt (encodeFrame flag seq ack payload ++ rest) (8 + payload.length)) =
        csum (checkedBytes flag seq ack payload) := by
  have h7 : 7 + payload.length = (checkedBytes flag seq ack payload).length + 0 := by simp
  have h8 : 8 + payload.length = (checkedBytes flag seq ack payload).length + 1 := by simp; omega
  rw [encodeFrame_eq, List.append_assoc, h7, h8, byteAt_append_right, byteAt_append_right]
  exact be16_hiByte_loByte _

variable {flag payload}

/-- DECODE of ENCODE, whatever bytes follow, is the tuple and its length: no test of R93 turns the frame away. -/
theorem decodeFrame_encodeFrame_append {c : Config} (hmaxp : c.maxp ≤ 65535) (htag : tagOf flag = c.tag)
    (hpl : payload.length ≤ c.maxp) :
    decodeFrame c (encodeFrame flag seq ack payload ++ rest) =
      .packet { flag := flag, seq := seq, ack := ack, payload := payload } (payload.length + 9) := by
  have hlen := lenField_encodeFrame_append flag seq ack payload rest (hpl.trans hmaxp)
  have htake := take_encodeFrame_append flag seq ack payload rest
  have hcrc := crcField_encodeFrame_append flag seq ack payload rest
  have hpay : ((encodeFrame flag seq ack payload ++ rest).drop 7).take payload.length = payload := by
    simp [encodeFrame, header]
  have hflag : byteAt (encodeFrame flag seq ack payload ++ rest) 0 = flag := rfl
  have hseq : be16 (byteAt (encodeFrame flag seq ack payload ++ rest) 1)
      (byteAt (encodeFrame flag seq ack payload ++ rest) 2) = seq := be16_hiByte_loByte seq
  have hack : be16 (byteAt (encodeFrame flag seq ack payload ++ rest) 3)
      (byteAt (encodeFrame flag seq ack payload ++ rest) 4) = ack := be16_hiByte_loByte ack
  have hbuf : payload.length + 9 ≤ (encodeFrame flag seq ack payload ++ rest).length := by simp
  simp only [decodeFrame, hdrLen, overhead, hlen, htake, hcrc, hpay, hflag, hseq, hack]
  rw [if_neg (by omega), if_neg (not_not.mpr htag), if_neg (by omega), if_neg (by omega), if_neg (not_not.mpr rfl)]

end

/-- Settles O9: an accepted frame's front is header, payload and the checksum ENCODE computes of them. -/
theorem decodedFrameIsEncoded : Obligations.DecodedFrameIsEncoded := by
  intro c bs p used h
  obtain ⟨hmaxp, hused, hle⟩ := Packet.payload_le_of_decode h
  obtain ⟨rfl, -, htag, -⟩ := decodeFrame_packet h
  exact ⟨take_eq_encodeFrame h, hused, hle, hmaxp, htag⟩

/-! ### Both encodings together (R60, R74, R75) -/

theorem length_le_of_checkPayload {c : Config} {payload : List Byte} (h : checkPayload c payload = none) :
    payload.length ≤ c.maxp := by
  unfold checkPayload at h
  split at h
  case isTrue hle => exact hle
  case isFalse => cases h

/-- A frame with the core's tag and payload bound decodes to the row its class bits name (R66). -/
theorem decode_frame_encodeFrame {c : Config} {payload : List Byte} (cls : BitVec 2) (seq ack : Seq) (hmaxp : c.maxp ≤ 65535)
    (hpl : checkPayload c payload = none) :
    decode c (.frame (encodeFrame (mkFlag c.tag cls) seq ack payload)) =
      .ok (Packet.instr { flag := mkFlag c.tag cls, seq := seq, ack := ack, payload := payload }) := by
  have h := decodeFrame_encodeFrame_append seq ack [] hmaxp (tagOf_mkFlag c.tag cls) (length_le_of_checkPayload hpl)
  rw [List.append_nil] at h
  simp only [decode, h, length_encodeFrame, if_true]

/-- Settles O10: a frame goes out under its row's class bits and comes back as the row they name; the eight command codes
differ. -/
theorem decodeOfEncodeIsTheInstruction : Obligations.DecodeOfEncodeIsTheInstruction := by
  intro c i hmaxp hwf
  cases i with
  | data | ack | fin | flag11 =>
    rw [encode, decode_frame_encodeFrame _ _ _ hmaxp hwf]
    simp [Packet.instr]
  | init | reset | send | recv | close | wait | isclosed | setclosed => rfl

/-- Settles O7: the four frames and the eight commands, each by running the decoder. -/
theorem specWordsDecode : Obligations.SpecWordsDecode := by
  unfold Obligations.SpecWordsDecode
  decide

end Sys2Proof.Machine
end

section
/-! PROOFS. DECODE of ENCODE for any bytes that follow (R103), and what the checksum sees of one damaged byte (R90, R91). -/

namespace Sys2Proof.Machine

/-- Settles O8: no test of DECODE turns a whole frame away, and each field reads back as it was put in. -/
theorem encodedFrameDecodesBack : Obligations.EncodedFrameDecodesBack :=
  fun _ _ seq ack _ rest hmaxp htag hpl => decodeFrame_encodeFrame_append seq ack rest hmaxp htag hpl

/-! ### The checksum step (R90) -/

/-- The rotate takes every bit but the top one from its left neighbour (R17). -/
theorem getLsbD_rotr16 (a : BitVec 16) {i : Nat} (hi : i < 15) : (rotr16 a).getLsbD i = a.getLsbD (i + 1) := by
  simp [rotr16, hi, Nat.add_comm]

/-- The rotate takes the top bit from bit 0 (R17). -/
theorem getLsbD_rotr16_top (a : BitVec 16) : (rotr16 a).getLsbD 15 = a.getLsbD 0 := by
  simp [rotr16]

theorem rotr16_injective : Function.Injective rotr16 := by
  intro a a' h
  apply BitVec.eq_of_getLsbD_eq
  intro i hi
  cases i with
  | zero => rw [← getLsbD_rotr16_top, h, getLsbD_rotr16_top]
  | succ i => rw [← getLsbD_rotr16 _ (by omega), h, getLsbD_rotr16 _ (by omega)]

/-- For a fixed byte the step is the rotate followed by a translation. -/
theorem csumStep_injective (b : Byte) : Function.Injective fun acc => csumStep acc b :=
  fun _ _ h => rotr16_injective (BitVec.add_left_inj _ |>.mp h)

/-- From the same accumulator, different bytes are added to the same number. -/
theorem csumStep_ne {b b' : Byte} (h : b ≠ b') (acc : BitVec 16) : csumStep acc b ≠ csumStep acc b' := by
  intro e
  have hext : b.zeroExtend 16 = b'.zeroExtend 16 := BitVec.add_right_inj _ |>.mp e
  apply h
  simpa using congrArg (BitVec.setWidth 8) hext

/-- A difference between two accumulators outlives any bytes both go on with. -/
theorem foldl_csumStep_injective (ys : List Byte) : Function.Injective fun acc => ys.foldl csumStep acc := by
  induction ys with
  | nil => exact Function.injective_id
  | cons y ys ih => exact ih.comp (csumStep_injective y)

theorem csum_ne_of_one_byte (xs ys : List Byte) {b b' : Byte} (h : b ≠ b') :
    csum (xs ++ b :: ys) ≠ csum (xs ++ b' :: ys) := by
  rw [csum_append, csum_append]
  exact fun e => csumStep_ne h (csum xs) (foldl_csumStep_injective ys e)

/-- Settles O11: an injective step on the finite accumulator is a bijection, and the first difference is never undone. -/
theorem checksumSeesOneByte : Obligations.ChecksumSeesOneByte :=
  ⟨fun b => (csumStep_injective b).bijective_of_finite, fun acc _ _ h => csumStep_ne h acc,
    fun xs ys _ _ h => csum_ne_of_one_byte xs ys h⟩

/-! ### One damaged byte (R91) -/

theorem byteAt_set_ne {bs : List Byte} {i j : Nat} (h : i ≠ j) (b : Byte) : byteAt (bs.set i b) j = byteAt bs j := by
  rw [byteAt, List.getD_eq_getElem?_getD, List.getElem?_set_ne h, ← List.getD_eq_getElem?_getD, byteAt]

/-- Replacing one byte of a sequence by another changes its checksum. -/
theorem csum_set_ne {bs : List Byte} {i : Nat} {b : Byte} (hi : i < bs.length) (hb : b ≠ byteAt bs i) :
    csum (bs.set i b) ≠ csum bs := by
  rw [byteAt, List.getD_eq_getElem _ _ hi] at hb
  have hold : bs = bs.take i ++ bs[i] :: bs.drop (i + 1) := by simp
  rw [List.set_eq_take_append_cons_drop, if_pos hi]
  exact fun e => csum_ne_of_one_byte _ _ hb (e.trans (congrArg csum hold))

/-- A buffer whose length field is in range and which is long enough, but whose checksum field is not the checksum of its header
and payload, is `Invalid`: by its tag, or else by its checksum (R68, R93). -/
theorem decodeFrame_invalid_of_csum {c : Config} {bs : List Byte} {n : Nat}
    (hn : (be16 (byteAt bs 5) (byteAt bs 6)).toNat = n) (hmaxp : n ≤ c.maxp) (hlen : n + 9 ≤ bs.length)
    (hcrc : csum (bs.take (7 + n)) ≠ be16 (byteAt bs (7 + n)) (byteAt bs (8 + n))) :
    ∃ why, decodeFrame c bs = .invalid why := by
  simp only [decodeFrame, hdrLen, overhead, hn]
  rw [if_neg (by omega)]
  by_cases htag : tagOf (byteAt bs 0) = c.tag
  · exact ⟨.badChecksum, by rw [if_neg (not_not.mpr htag), if_neg (by omega), if_neg (by omega), if_pos hcrc]⟩
  · exact ⟨.badTag, if_pos htag⟩

/-- Settles O12: the damage leaves the length and checksum fields as they were and changes the checksum of the bytes summed. -/
theorem oneDamagedByteIsInvalid : Obligations.OneDamagedByteIsInvalid := by
  intro c flag seq ack payload rest i b hmaxp _ hpl hi h5 h6 hb
  have hlen := lenField_encodeFrame_append flag seq ack payload rest (hpl.trans hmaxp)
  have htake := take_encodeFrame_append flag seq ack payload rest
  have hcrc := crcField_encodeFrame_append flag seq ack payload rest
  have hold : b ≠ byteAt (checkedBytes flag seq ack payload) i := by
    rwa [encodeFrame_eq, byteAt, List.getD_append _ _ _ _ (by simpa using hi)] at hb
  rw [← List.set_append_left i b (by simp; omega)]
  refine decodeFrame_invalid_of_csum (n := payload.length) ?_ hpl (by simp) ?_
  · rwa [byteAt_set_ne h5, byteAt_set_ne h6]
  · rw [byteAt_set_ne (by omega), byteAt_set_ne (by omega), List.take_set, htake, hcrc]
    exact csum_set_ne (by simpa using hi) hold

end Sys2Proof.Machine
end

section
/-! PROOFS. The decode pass (R100, R101) and the read port by its answers (R99, R150, R154). -/

namespace Sys2Proof.Machine

/-! ### The decode pass -/

section
variable {s : State}

theorem resume_of_atPass (hp : s.phase.atPass = true) : resume s = stepPass s := by
  unfold resume
  cases h : s.phase <;> rw [h] at hp <;> cases hp

theorem stepPass_of_packet {p : Packet} {used : Nat} (hd : decodeFrame s.cfg s.rx.bytes = .packet p used) :
    stepPass s = exec p.instr { s with rx := s.rx.consume used } := by
  simp only [stepPass, nextFrame, hd]

end

/-- Settles O4: each of the four labels is the head of its own command's decode pass. -/
theorem stepRunsDecodedFrame : Obligations.StepRunsDecodedFrame := by
  intro s p used hat hd
  have hpass : s.op ≠ .idle ∧ s.phase.op = s.op ∧ s.phase.atPass = true := by
    obtain ⟨ho, hp⟩ | ⟨ho, hp⟩ | ⟨ho, hp⟩ | ⟨ho, hp⟩ := hat <;> rw [ho, hp] <;> exact ⟨nofun, rfl, rfl⟩
  obtain ⟨hb, hop, hp⟩ := hpass
  rw [step_busy hb hop, resume_of_atPass hp, stepPass_of_packet hd]

/-- Settles O14: NEXTFRAME does what DECODE's answer says, and touches `RXBUF` only. -/
theorem nextFrameTakesOneFrame : Obligations.NextFrameTakesOneFrame := by
  refine fun s => ⟨fun h => ?_, fun why h => ?_, fun p used h => ?_⟩ <;> simp only [nextFrame, h]
  · exact ⟨trivial, rfl, trivial⟩
  · exact ⟨trivial, s.rx.consume_bytes used, trivial⟩

/-! ### The read port -/

section
variable {s : State}

theorem chanRead_of_err (ha : s.readAnswer s.room = .err) :
    chanRead s = (.raised, (s.logRead s.room).raise .rx) := by
  simp only [chanRead, ha]

theorem rxRead_of_err (ha : s.readAnswer s.room = .err) : rxRead s = (.raised, (s.logRead s.room).raise .rx) := by
  simp only [rxRead, chanRead_of_err ha]

theorem rxRead_of_tick (ha : s.readAnswer s.room = .bytes []) :
    rxRead s = (if s.conn.maxTimeout ≤ s.work.ticks + 1 then .timedOut else .tick,
      (s.logRead s.room).setTicks (s.work.ticks + 1)) := by
  obtain ⟨h, -⟩ | ⟨-, e⟩ | ⟨bs, h, hne, -⟩ := rxRead_cases s
  · cases h.symm.trans ha
  · exact e
  · cases h.symm.trans ha
    exact absurd rfl hne

theorem rxRead_of_bytes {b : Byte} {bs : List Byte} (ha : s.readAnswer s.room = .bytes (b :: bs))
    (hl : bs.length + 1 ≤ s.room) : rxRead s = (.got, { s.logRead s.room with rx := s.rx.append (b :: bs) }) := by
  obtain ⟨h, -⟩ | ⟨h, -⟩ | ⟨bs', h, -, ⟨-, e⟩ | ⟨hlt, -⟩⟩ := rxRead_cases s <;> cases h.symm.trans ha
  · exact e
  · exact absurd hlt (Nat.not_lt_of_le hl)

end

/-- Settles O15: the next state of RXREAD for each of the channel's answers. -/
theorem rxreadByAnswer : Obligations.RxreadByAnswer := by
  refine fun s => ⟨fun h => ?_, fun h => ?_, fun b bs h hl => ?_⟩
  · rw [rxRead_of_err h]
    exact ⟨rfl, rfl, rfl, rfl, rfl⟩
  · rw [rxRead_of_tick h]
    exact ⟨rfl, rfl, rfl⟩
  · rw [rxRead_of_bytes h hl]
    exact ⟨rfl, s.rx.append_bytes (b :: bs), rfl, rfl⟩

/-- Settles O16: SEND, RECV and CLOSE read by RXREAD, WAIT by the port itself, and each passes on the state these raised `ERR_RX`
in. -/
theorem readErrorEndsTheCommand : Obligations.ReadErrorEndsTheCommand := by
  intro s ha hp
  have hport := chanRead_of_err ha
  have hrx := rxRead_of_err ha
  obtain ⟨ho, hp⟩ | ⟨ho, hp⟩ | ⟨ho, hp⟩ | ⟨ho, hp⟩ := hp <;> rw [step_busy (by simp [ho]) (by simp [ho, hp, Phase.op])]
  · simp only [resume, hp, stepSendRead, hrx]; rfl
  · simp only [resume, hp, stepRecvWait, hrx]; rfl
  · simp only [resume, hp, stepCloseWait, hrx]; rfl
  · simp only [resume, hp, stepWaitPoll, hport]; rfl

end Sys2Proof.Machine
end

section
/-! PROOFS. What every step keeps of `RXBUF` and `TXBUF`: no overflow, an incomplete front between decode passes, and a whole frame
at every write (R39, R48, R101, R102). -/

namespace Sys2Proof.Machine

/-! ### Rules for `Buffered` -/

section
variable {s : State}

/-- A step that leaves `RXBUF` alone, comes from between two decode passes if it ends there, and ends at no write. `Buffered`
speaks of the parameters, the label and the buffers only, so this rule and the next two serve any step that agrees on these. -/
theorem Buffered.goto (hs : Buffered s) {p : Phase} (hp : p.betweenPasses = false ∨ s.phase.betweenPasses = true)
    (hw : p.writes = false) : Buffered (s.goto p) := by
  obtain ⟨hl, hfill, hfront, -⟩ := hs
  rw [Buffered, State.goto_phase, hw]
  exact ⟨hl, hfill, fun e => hfront (hp.resolve_left (Bool.ne_false_iff.mpr e)), nofun⟩

/-- A step that discards `RXBUF` (R59). -/
theorem Buffered.discard (hs : Buffered s) {p : Phase} (hw : p.writes = false) :
    Buffered ({ s with rx := s.rx.discard }.goto p) := by
  obtain ⟨hl, -⟩ := hs
  rw [Buffered, State.goto_phase, hw]
  exact ⟨hl, Nat.zero_le _, fun _ => .inl rfl, nofun⟩

/-- Bytes within the room asked for, appended on the way into a decode pass, do not overflow `RXBUF` (R47, R59). -/
theorem Buffered.append (hs : Buffered s) {bs : List Byte} (hl : bs.length ≤ s.room) {p : Phase}
    (hp : p.betweenPasses = false) (hw : p.writes = false) : Buffered ({ s with rx := s.rx.append bs }.goto p) := by
  obtain ⟨hlegal, hfill, -⟩ := hs
  rw [Buffered, State.goto_phase, hp, hw]
  refine ⟨hlegal, ?_, nofun, nofun⟩
  simp only [State.room] at hl
  simp only [State.goto_rx, State.goto_cfg, RxBuf.append]
  omega

/-- A step that ends with a frame in `TXBUF`: its length is within R48's bound because the payload's is within `MAXP`. -/
theorem Buffered.encodes (hs : Buffered s) {payload : List Byte} (hpl : payload.length ≤ s.cfg.maxp) {p : Phase}
    (hp : p.betweenPasses = false ∨ s.phase.betweenPasses = true) (flag : Byte) (seq ack : Seq) :
    Buffered (txFrame flag seq ack payload p s) := by
  obtain ⟨hl, hfill, hfront, -⟩ := hs
  refine ⟨hl, hfill, fun e => hfront (hp.resolve_left (Bool.ne_false_iff.mpr e)), fun _ => ?_⟩
  rw [State.txFrame_txfill, length_encodeFrame]
  exact ⟨Nat.le_add_left .., Nat.add_le_add_right hpl 9⟩

/-- The frames without payload: ACK and FIN (R96). -/
theorem Buffered.encodes_empty (hs : Buffered s) {p : Phase}
    (hp : p.betweenPasses = false ∨ s.phase.betweenPasses = true) (flag : Byte) (seq ack : Seq) :
    Buffered (txFrame flag seq ack [] p s) := hs.encodes (Nat.zero_le _) hp flag seq ack

/-- Inside a decode pass bytes may be taken off the front (R59). -/
theorem Buffered.consumes (hs : Buffered s) (hp : s.phase.betweenPasses = false) (n : Nat) :
    Buffered { s with rx := s.rx.consume n } := by
  obtain ⟨hl, hfill, -, htx⟩ := hs
  refine ⟨hl, (Nat.sub_le _ _).trans hfill, fun e => ?_, htx⟩
  rw [show s.phase.betweenPasses = true from e] at hp
  cases hp

/-- A decode pass that ends with an incomplete frame leaves it at the front (R101). -/
theorem Buffered.endsPass (hs : Buffered s) (hd : decodeFrame s.cfg s.rx.bytes = .needMore) {p : Phase}
    (hw : p.writes = false) : Buffered (s.goto p) := by
  obtain ⟨hl, hfill, -⟩ := hs
  refine ⟨hl, hfill, fun _ => .inr hd, fun e => ?_⟩
  rw [State.goto_phase, hw] at e
  cases e

theorem Phase.betweenPasses_of_reads {p : Phase} (h : p.reads = true) : p.betweenPasses = true := by
  cases p <;> cases h <;> rfl

theorem Phase.betweenPasses_of_atPass {p : Phase} (h : p.atPass = true) : p.betweenPasses = false := by
  cases p <;> cases h <;> rfl

theorem Phase.afterPass_writes {p : Phase} (h : p.atPass = true) : p.afterPass.writes = false := by
  cases p <;> cases h <;> rfl

/-- The incomplete front of a frame is shorter than the longest frame (R102). -/
theorem length_lt_of_needMore {c : Config} {bs : List Byte} (h : decodeFrame c bs = .needMore) :
    bs.length < c.maxp + 9 := by
  simp only [decodeFrame, hdrLen, overhead] at h
  split at h
  · omega
  split at h
  · cases h
  split at h
  · cases h
  split at h
  · omega
  split at h <;> cases h

/-- Wherever the core reads there is room for a byte, `RXCAP` being a whole frame at least (R10, R102). -/
theorem Buffered.room_pos (hs : Buffered s) (hr : s.phase.reads = true) : 1 ≤ s.room := by
  obtain ⟨⟨-, -, -, hcap⟩, -, hfront, -⟩ := hs
  rw [State.room]
  obtain he | hd := hfront (Phase.betweenPasses_of_reads hr)
  · omega
  · have hlt := length_lt_of_needMore hd
    rw [length_bytes] at hlt
    omega

end

/-! ### The phases between -/

section
variable {s : State} (hs : Buffered s)
include hs

/-- A write followed by `k` keeps what `k` keeps: the transaction itself touches neither buffer (R48, R95). -/
theorem chanWrite_buffered {k : State → State} (hk : Buffered (k (s.logWrite s.txBytes))) : Buffered (chanWrite k s) := by
  obtain ⟨-, e⟩ | ⟨-, e⟩ := chanWrite_cases k s <;> rw [e]
  · exact hk
  · exact hs.goto (.inl rfl) rfl

theorem runSend_buffered : Buffered (runSend s) := by
  unfold runSend
  split
  · exact hs.goto (.inl rfl) rfl
  · exact hs.discard rfl

theorem runClose_buffered : Buffered (runClose s) := by
  unfold runClose
  split
  · exact hs.goto (.inl rfl) rfl
  · exact hs.discard rfl

theorem stepSendRound_buffered (hb : s.phase.betweenPasses = true) : Buffered (stepSendRound s) := by
  unfold stepSendRound
  split
  · exact hs.goto (.inr hb) rfl
  · exact hs.goto (.inl rfl) rfl

omit hs in
/-- A burst slot carries at most `MAXP` bytes (R114). -/
theorem length_burstPayload_le (s : State) (j : Nat) : (burstPayload s j).length ≤ s.cfg.maxp := by
  have hle : min ((j + 1) * s.cfg.maxp) s.work.remain ≤ j * s.cfg.maxp + s.cfg.maxp :=
    (Nat.min_le_left ..).trans_eq (Nat.succ_mul ..)
  rw [burstPayload, Memory.length_readBytes, burstBytes]
  omega

theorem stepSendBurst_buffered (j : Nat) (hb : s.phase.betweenPasses = true) : Buffered (stepSendBurst j s) := by
  unfold stepSendBurst
  split
  · split
    · exact hs.goto (.inr hb) rfl
    · exact hs.encodes (length_burstPayload_le s j) (.inr hb) ..
  · exact hs.goto (.inr hb) rfl

theorem leaveSendWait_buffered (hb : s.phase.betweenPasses = true) : Buffered (leaveSendWait s) := by
  unfold leaveSendWait
  split
  · exact hs.goto (.inl rfl) rfl
  · exact hs.goto (.inr hb) rfl

theorem stepSendWait_buffered (hb : s.phase.betweenPasses = true) : Buffered (stepSendWait s) := by
  unfold stepSendWait
  split
  · exact leaveSendWait_buffered hs hb
  · exact hs.goto (.inr hb) rfl

theorem stepSendAdvance_buffered (hb : s.phase.betweenPasses = true) : Buffered (stepSendAdvance s) := by
  unfold stepSendAdvance
  split
  · exact hs.goto (.inl rfl) rfl
  · exact hs.goto (.inr hb) rfl

theorem stepSendRead_buffered (hb : s.phase.betweenPasses = true) : IfNext Buffered (stepSendRead s) := by
  unfold stepSendRead
  obtain ⟨-, e⟩ | ⟨-, e⟩ | ⟨bs, -, -, ⟨hl, e⟩ | ⟨-, e⟩⟩ := rxRead_cases s
  · rw [e]; exact hs.goto (.inl rfl) rfl
  · split at e <;> rw [e]
    · exact leaveSendWait_buffered (s := (s.logRead s.room).setTicks (s.work.ticks + 1)) hs hb
    · exact hs.goto (.inr hb) rfl
  · rw [e]; exact hs.append hl rfl rfl
  · rw [e]; trivial

/-- A turn of the drain touches neither buffer (R130). -/
theorem drainTurn_buffered {t : State} (h : drainTurn s = some t) : Buffered t := by
  obtain ⟨rfl, -⟩ | rfl := drainTurn_some h
  · exact hs
  · exact hs

theorem recvEntryTests_buffered (hb : s.phase.betweenPasses = true) : Buffered (recvEntryTests s) := by
  unfold recvEntryTests
  split
  · exact hs.goto (.inl rfl) rfl
  · split
    · split
      · exact hs.goto (.inl rfl) rfl
      · exact hs.goto (.inl rfl) rfl
    · exact hs.goto (.inr hb) rfl

theorem stepRecvDrain_buffered (hb : s.phase.betweenPasses = true) : Buffered (stepRecvDrain s) := by
  unfold stepRecvDrain
  split
  case h_1 t h => exact drainTurn_buffered hs h
  case h_2 => exact recvEntryTests_buffered hs hb

theorem stepRecvRedrain_buffered (q : Seq) : Buffered (stepRecvRedrain q s) := by
  unfold stepRecvRedrain
  split
  case h_1 t h => exact drainTurn_buffered hs h
  case h_2 => exact hs.encodes_empty (.inl rfl) ..

theorem stepRecvWait_buffered : IfNext Buffered (stepRecvWait s) := by
  unfold stepRecvWait
  obtain ⟨-, e⟩ | ⟨-, e⟩ | ⟨bs, -, -, ⟨hl, e⟩ | ⟨-, e⟩⟩ := rxRead_cases s
  · rw [e]; exact hs.goto (.inl rfl) rfl
  · split at e <;> rw [e]
    · exact hs.goto (.inl rfl) rfl
    · exact hs
  · rw [e]; exact hs.append hl rfl rfl
  · rw [e]; trivial

theorem stepRecvReply_buffered : Buffered (stepRecvReply s) := by
  refine chanWrite_buffered hs ?_
  split
  · exact hs.goto (.inl rfl) rfl
  · exact hs.goto (.inl rfl) rfl

theorem stepCloseAttempt_buffered (hb : s.phase.betweenPasses = true) : Buffered (stepCloseAttempt s) := by
  unfold stepCloseAttempt
  split
  · exact hs.encodes_empty (.inr hb) ..
  · exact hs.goto (.inl rfl) rfl

theorem stepCloseWait_buffered (hb : s.phase.betweenPasses = true) : IfNext Buffered (stepCloseWait s) := by
  unfold stepCloseWait
  obtain ⟨-, e⟩ | ⟨-, e⟩ | ⟨bs, -, -, ⟨hl, e⟩ | ⟨-, e⟩⟩ := rxRead_cases s
  · rw [e]; exact hs.goto (.inl rfl) rfl
  · split at e <;> rw [e]
    · exact hs.goto (.inr hb) rfl
    · exact hs
  · rw [e]; exact hs.append hl rfl rfl
  · rw [e]; trivial

theorem stepWaitRead_buffered (hb : s.phase.betweenPasses = true) : Buffered (stepWaitRead s) := by
  unfold stepWaitRead
  split
  · exact hs.goto (.inr hb) rfl
  · exact hs.goto (.inl rfl) rfl

theorem stepWaitPoll_buffered (hb : s.phase.betweenPasses = true) : IfNext Buffered (stepWaitPoll s) := by
  unfold stepWaitPoll
  obtain ⟨-, e⟩ | ⟨-, e⟩ | ⟨bs, -, -, ⟨hl, e⟩ | ⟨-, e⟩⟩ := chanRead_cases s <;> rw [e]
  · exact hs.goto (.inl rfl) rfl
  · exact hs.goto (.inr hb) rfl
  · exact hs.append hl rfl rfl
  · trivial

/-! ### The meanings of the instructions -/

theorem recvDataArm_buffered (q : Seq) (pl : List Byte) : Buffered (recvDataArm q pl s) := by
  simp only [recvDataArm]
  split
  · exact hs.goto (.inl rfl) rfl
  · exact hs.encodes_empty (.inl rfl) ..

theorem dataMeaning_buffered (q : Seq) (pl : List Byte) : IfNext Buffered (dataMeaning q pl s) := by
  unfold dataMeaning
  split
  case h_2 =>
    split
    · exact recvDataArm_buffered hs q pl
    · trivial
  case h_4 => exact hs.encodes_empty (.inl rfl) ..
  all_goals exact hs

theorem ackMeaning_buffered (a : Seq) : IfNext Buffered (ackMeaning a s) := by
  unfold ackMeaning
  split
  case h_4 => exact hs.encodes_empty (.inl rfl) ..
  all_goals exact hs

theorem finMeaning_buffered (q a : Seq) : IfNext Buffered (finMeaning q a s) := by
  unfold finMeaning
  split
  case h_3 => exact hs.goto (.inl rfl) rfl
  case h_5 => exact hs
  all_goals exact hs.encodes_empty (.inl rfl) ..

/-- No instruction's meaning breaks `Buffered`: a command that goes on discards `RXBUF`, and a frame leaves it alone. -/
theorem exec_buffered (i : Instr) : IfNext Buffered (exec i s) := by
  cases i with
  | data q _ pl => exact dataMeaning_buffered hs q pl
  | ack _ a _ => exact ackMeaning_buffered hs a
  | fin q a _ => exact finMeaning_buffered hs q a
  | flag11 q a pl =>
    cases hf : s.cfg.flag11 with
    | ack => rw [exec_flag11_ack hf]; exact ackMeaning_buffered hs a
    | fin => rw [exec_flag11_fin hf]; exact finMeaning_buffered hs q a
  | init | reset | isclosed | setclosed => exact ifNext_guardLaunch_next (hs.goto (.inl rfl) rfl)
  | send n =>
    refine ifNext_guardLaunch ?_
    split
    · exact runSend_buffered (hs.goto (.inl rfl) rfl)
    · trivial
  | recv n =>
    refine ifNext_guardLaunch ?_
    split
    · exact hs.discard rfl
    · trivial
  | close => exact ifNext_guardLaunch_next (runClose_buffered (hs.goto (.inl rfl) rfl))
  | wait => exact ifNext_guardLaunch_next (hs.discard rfl)

/-! ### The step -/

theorem stepIdle_buffered : IfNext Buffered (stepIdle s) := by
  unfold stepIdle
  split
  case h_1 => exact hs
  case h_2 c rest _ => exact exec_buffered (s := s.take c rest) hs _

/-- A decode pass ends with the incomplete front of a frame or with nothing, and takes every whole frame off (R100, R101). -/
theorem stepPass_buffered (hp : s.phase.atPass = true) : IfNext Buffered (stepPass s) := by
  have hw := Phase.afterPass_writes hp
  obtain ⟨hd, e⟩ | ⟨-, -, e⟩ | ⟨p, used, -, e⟩ := stepPass_cases s <;> rw [e]
  · exact hs.endsPass hd hw
  · exact hs.discard hw
  · exact exec_buffered (hs.consumes (Phase.betweenPasses_of_atPass hp) used) _

theorem resume_buffered : IfNext Buffered (resume s) := by
  unfold resume
  cases h : s.phase
  all_goals have hb := congrArg Phase.betweenPasses h
  all_goals have ha := congrArg Phase.atPass h
  case none => trivial
  case init | reset => exact hs.goto (.inl rfl) rfl
  case sendEntry => exact runSend_buffered hs
  case sendRound => exact stepSendRound_buffered hs hb
  case sendBurst j => exact stepSendBurst_buffered hs j hb
  case sendWrite => exact chanWrite_buffered hs (hs.goto (.inr hb) rfl)
  case sendWait => exact stepSendWait_buffered hs hb
  case sendRead => exact stepSendRead_buffered hs hb
  case sendPass | recvPass | closePass | waitPass => exact stepPass_buffered hs ha
  case sendEcho | recvEcho | waitReply => exact chanWrite_buffered hs (hs.goto (.inl rfl) rfl)
  case sendAdvance => exact stepSendAdvance_buffered hs hb
  case sendDone | closeExhausted | waitDone => exact hs.goto (.inl rfl) rfl
  case recvEntry | waitEntry => exact hs.discard rfl
  case recvDrain => exact stepRecvDrain_buffered hs hb
  case recvWait => exact stepRecvWait_buffered hs
  case recvRedrain q => exact stepRecvRedrain_buffered hs q
  case recvReply => exact stepRecvReply_buffered hs
  case closeEntry => exact runClose_buffered hs
  case closeAttempt => exact stepCloseAttempt_buffered hs hb
  case closeWrite => exact chanWrite_buffered hs (hs.goto (.inr hb) rfl)
  case closeWait => exact stepCloseWait_buffered hs hb
  case waitRead => exact stepWaitRead_buffered hs hb
  case waitPoll => exact stepWaitPoll_buffered hs hb

theorem step_buffered {t : State} (h : step s = .next t) : Buffered t := by
  by_cases ho : s.op = .idle
  · exact (stepIdle_buffered hs).elim (step_idle ho ▸ h)
  · exact (resume_buffered hs).elim (busy_step ho h).2

end

/-- Settles O51: every step keeps `Buffered`, an incomplete front leaves room in `RXBUF`, and `TXBUF`'s frame is `txfill` long. -/
theorem stepKeepsRxbufOpen : Obligations.StepKeepsRxbufOpen := by
  refine ⟨fun s t hs h => step_buffered hs h, fun s hs hr => hs.room_pos hr, fun s hs hw => ?_⟩
  obtain ⟨-, -, -, htx⟩ := hs
  rw [State.txBytes, Memory.length_readBytes]
  exact htx hw

end Sys2Proof.Machine
end

section
/-! PROOFS. The issue of a command on an idle core, and the connection-state commands INIT, RESET, ISCLOSED, SETCLOSED (R104 to
R108). -/

namespace Sys2Proof.Machine

/-! ### An idle core -/

section
variable {s : State}

/-- An idle core passes the launch test where it is initialised or the command needs no initialised core (R171, R172). -/
theorem guardLaunch_of_idle {b : Bool} {k : Outcome} (ho : s.op = .idle) (hi : b = true → s.inited = true) :
    guardLaunch b s k = k := by
  obtain ⟨-, -, e⟩ | ⟨hb, -⟩ | ⟨-, hb, hn, -⟩ := guardLaunch_cases b s k
  · exact e
  · exact absurd ho hb
  · exact absurd (hi hb) (by simp [hn])

/-- A command issued and ended in one step leaves an idle core's `OP` as it was. -/
theorem endWith_of_idle (ho : s.op = .idle) (v : Word) : s.endWith v = { s with phase := .none, result := v } := by
  rw [State.endWith, ← ho]

theorem stepIdle_of_host_cons {c : HostCmd} {rest : List HostCmd} (hh : s.host = c :: rest) :
    stepIdle s = exec (decodeLaunch c.launch) (s.take c rest) := by
  rw [stepIdle, hh]

/-- A context inside its width is latched uncut (R30, R44). -/
theorem truncCtx_of_lt {c : Config} {x : Nat} (h : x < 2 ^ c.ctxw) : truncCtx c x = x := Nat.mod_eq_of_lt h

end

/-- Settles O3: the idle core's step is the issue of the queue's first command. -/
theorem stepRunsIssuedCommand : Obligations.StepRunsIssuedCommand := by
  intro s c rest ho hh
  rw [step_idle ho, stepIdle_of_host_cons hh]
  rfl

/-! ### The connection-state commands -/

/-- `zext_32` of a flag (R107). -/
theorem ofNat_toNat_bool (b : Bool) : BitVec.ofNat 32 b.toNat = if b then 1 else 0 := by
  cases b <;> rfl

/-- Settles O17: INIT passes the launch test on any idle core, writes the whole Connection State and ends at once. -/
theorem initCreatesTheConnection : Obligations.InitCreatesTheConnection := by
  intro s r t x ho hx
  rw [exec, execInit, guardLaunch_of_idle (b := false) ho nofun, truncCtx_of_lt hx]
  exact congrArg Host.Outcome.next (endWith_of_idle (s := { s with inited := true, conn := _, args := _ }) ho 0)

/-- Settles O18: RESET restarts the Connection State and ends at once. -/
theorem resetRearmsTheConnection : Obligations.ResetRearmsTheConnection := by
  intro s ho hi
  rw [exec, execReset, guardLaunch_of_idle ho fun _ => hi]
  exact congrArg Host.Outcome.next (endWith_of_idle (s := { s with conn := s.conn.restarted }) ho 0)

/-- Settles O19: each ends at once, ISCLOSED with the flag as its count, SETCLOSED with the flag set. -/
theorem isclosedAndSetclosed : Obligations.IsclosedAndSetclosed := by
  refine fun s ho hi => ⟨?_, ?_⟩
  · rw [exec, execIsclosed, guardLaunch_of_idle ho fun _ => hi, ← ofNat_toNat_bool]
    exact congrArg Host.Outcome.next (endWith_of_idle ho _)
  · rw [exec, execSetclosed, guardLaunch_of_idle ho fun _ => hi]
    exact congrArg Host.Outcome.next (endWith_of_idle (s := s.setClosed) ho 0)

end Sys2Proof.Machine
end

section
/-! PROOFS. SEND counts the packets it advances past (R113, R121, R122). -/

namespace Sys2Proof.Machine

/-! ### What a step of SEND does to its count -/

/-- The parameters, `SEQ`, `LEN0` and `REMAIN` are the same in both states: SEND's count of packets has not moved. -/
structure SameCount (s t : State) : Prop where
  cfg : t.cfg = s.cfg
  seq : t.conn.seq = s.conn.seq
  len0 : t.work.len0 = s.work.len0
  remain : t.work.remain = s.work.remain

/-- SEND stands at a label of its round loop, or has ended with `ERR_RX`, `ERR_TX` or `LEN0 - REMAIN` (R113, R122). -/
def State.SendingOrReturned (t : State) : Prop :=
  (t.op = .send ∧ t.phase ≠ .sendEntry) ∨
    (t.op = .idle ∧ (t.result = -1 ∨ t.result = -2 ∨ t.result = BitVec.ofNat 32 (t.work.len0 - t.work.remain)))

/-- A step of SEND past its entry: only ADVANCE moves the count. -/
structure SendStep (s t : State) : Prop where
  count : SameCount s t ∨ SameCount (advance s) t
  place : t.SendingOrReturned

theorem AfterRead.sameCount {s u : State} (h : AfterRead s u) : SameCount s u :=
  ⟨h.cfg, by rw [h.conn], by rw [h.work], by rw [h.work]⟩

theorem SendStep.returns {s u : State} (h : SameCount s u) : SendStep s (sendReturn u) :=
  ⟨.inl { h with }, .inr ⟨rfl, .inr (.inr rfl)⟩⟩

/-- A step to another label of SEND. Where the next state is written out, what it leaves alone holds by computation. -/
theorem SendStep.stays {s t : State} (ho : t.op = .send) (hc : SameCount s t := by exact ⟨rfl, rfl, rfl, rfl⟩)
    (hp : t.phase ≠ .sendEntry := by nofun) : SendStep s t := ⟨.inl hc, .inl ⟨ho, hp⟩⟩

section
variable {s : State} (ho : s.op = .send)
include ho

omit ho in
/-- A write followed by `k` counts what `k` counts, or ends the command with `ERR_TX` (R95). -/
theorem chanWrite_sendStep {k : State → State} (hk : SendStep s (k (s.logWrite s.txBytes))) :
    SendStep s (chanWrite k s) := by
  obtain ⟨-, e⟩ | ⟨-, e⟩ := chanWrite_cases k s <;> rw [e]
  · exact hk
  · exact ⟨.inl ⟨rfl, rfl, rfl, rfl⟩, .inr ⟨rfl, .inr (.inl rfl)⟩⟩

theorem stepSendRound_sendStep : SendStep s (stepSendRound s) := by
  unfold stepSendRound
  split
  · exact .stays ho
  · exact .stays ho

theorem stepSendBurst_sendStep (j : Nat) : SendStep s (stepSendBurst j s) := by
  unfold stepSendBurst
  split
  · split
    · exact .stays ho
    · exact .stays ho
  · exact .stays ho

omit ho in
theorem leaveSendWait_sendStep {u : State} (hu : u.op = .send) (hc : SameCount s u) : SendStep s (leaveSendWait u) := by
  unfold leaveSendWait
  split
  · exact .returns hc
  · exact .stays hu { hc with }

theorem stepSendWait_sendStep : SendStep s (stepSendWait s) := by
  unfold stepSendWait
  split
  · exact leaveSendWait_sendStep ho ⟨rfl, rfl, rfl, rfl⟩
  · exact .stays ho

theorem stepSendRead_sendStep : IfNext (SendStep s) (stepSendRead s) := by
  unfold stepSendRead
  obtain e | ⟨u, hu, e⟩ | ⟨u, e⟩ := rxRead_outcomes s
  · rw [e]
    exact ⟨.inl ⟨rfl, rfl, rfl, rfl⟩, .inr ⟨rfl, .inl rfl⟩⟩
  · have hc := hu.sameCount
    have hop : u.op = .send := hu.op.trans ho
    obtain e | e | e := e <;> rw [e]
    · exact .stays (t := u.goto .sendWait) hop { hc with }
    · exact leaveSendWait_sendStep hop hc
    · exact .stays (t := u.goto .sendPass) hop { hc with }
  · rw [e]
    trivial

/-- A decode pass only marks packets (R116 to R119). -/
theorem sendPass_sendStep (hp : s.phase = .sendPass) : IfNext (SendStep s) (stepPass s) := by
  have hpass : s.phase ≠ .sendEntry := by rw [hp]; nofun
  obtain ⟨-, e⟩ | ⟨-, -, e⟩ | ⟨p, used, -, e⟩ := stepPass_cases s <;> rw [e]
  · rw [hp]
    exact .stays ho
  · rw [hp]
    exact .stays ho
  · generalize s.rx.consume used = r
    obtain e | e | e := exec_packet_cases p { s with rx := r } <;> rw [e]
    · rw [dataMeaning_send (s := { s with rx := r }) ho hp]
      exact .stays ho (hp := hpass)
    · rw [ackMeaning_send (s := { s with rx := r }) ho hp]
      exact .stays ho (hp := hpass)
    · rw [finMeaning_send (s := { s with rx := r }) ho hp]
      exact .stays ho

theorem stepSendAdvance_sendStep : SendStep s (stepSendAdvance s) := by
  unfold stepSendAdvance
  split
  · exact ⟨.inr ⟨rfl, rfl, rfl, rfl⟩, .inl ⟨ho, nofun⟩⟩
  · exact ⟨.inr ⟨rfl, rfl, rfl, rfl⟩, .inl ⟨ho, nofun⟩⟩

theorem resume_sendStep (hp : s.phase.op = .send) (hne : s.phase ≠ .sendEntry) : IfNext (SendStep s) (resume s) := by
  unfold resume
  cases h : s.phase <;> rw [h] at hp <;> cases hp
  case sendEntry => exact absurd h hne
  case sendRound => exact stepSendRound_sendStep ho
  case sendBurst j => exact stepSendBurst_sendStep ho j
  case sendWrite => exact chanWrite_sendStep (.stays ho)
  case sendWait => exact stepSendWait_sendStep ho
  case sendRead => exact stepSendRead_sendStep ho
  case sendPass => exact sendPass_sendStep ho h
  case sendEcho => exact chanWrite_sendStep (.stays ho)
  case sendAdvance => exact stepSendAdvance_sendStep ho
  case sendDone => exact .returns ⟨rfl, rfl, rfl, rfl⟩

end

/-! ### The count (R122) -/

section
variable {s t : State} {start : Seq} {n : Nat}

theorem SameCount.advanced (h : SameCount s t) (hs : Advanced start n s) : Advanced start n t := by
  rw [Advanced, h.seq, h.remain, h.len0, h.cfg]
  exact hs

/-- ADVANCE over `k` packets moves `SEQ` and `REMAIN` by `k` together (R121). -/
theorem advanced_advance (hs : Advanced start n s) :
    Advanced start (n + contiguous s.cfg.w s.work.acked) (advance s) := by
  obtain ⟨hq, hr⟩ := hs
  refine ⟨?_, ?_⟩
  · simp only [advance, hq, BitVec.ofNat_add, BitVec.add_assoc]
  · simp only [advance, hr, Nat.add_mul, Nat.sub_sub]

/-- What is no longer left to send is `n` whole packets, or everything. -/
theorem Advanced.count (h : Advanced start n s) : s.work.len0 - s.work.remain = min s.work.len0 (n * s.cfg.maxp) := by
  obtain ⟨-, hr⟩ := h
  omega

end

/-- Settles O31: only ADVANCE moves the count, and it moves `SEQ` and `REMAIN` together. -/
theorem sendCountsThePacketsAdvanced : Obligations.SendCountsThePacketsAdvanced := by
  intro s t start n ho hne hs h
  obtain ⟨hp, h⟩ := busy_step (by simp [ho]) h
  obtain ⟨hcount, hplace⟩ := (resume_sendStep ho (hp.trans ho) hne).elim h
  have hm : ∃ m, n ≤ m ∧ Advanced start m t ∧ t.cfg = s.cfg ∧ t.work.len0 = s.work.len0 := by
    obtain hc | hc := hcount
    · exact ⟨n, le_rfl, hc.advanced hs, hc.cfg, hc.len0⟩
    · exact ⟨_, Nat.le_add_right .., hc.advanced (advanced_advance hs), hc.cfg, hc.len0⟩
  obtain ⟨m, hle, ht, hcfg, hlen⟩ := hm
  refine ⟨m, hle, ht, hlen, ?_⟩
  rw [← hcfg, ← ht.count]
  exact hplace

end Sys2Proof.Machine
end

section
/-! PROOFS. Every step keeps SEND's window (R123). -/

namespace Sys2Proof.Machine

/-- A busy core's step is one of those `Steps` speaks of, whatever its label. -/
theorem busy_step_steps {s t : State} (hb : s.op ≠ .idle) (h : step s = .next t) : ∃ ch, Steps ch s t := by
  obtain ⟨hp, h⟩ := busy_step hb h
  cases hr : s.phase.reads
  case true =>
    obtain e | ⟨u, e, hu⟩ := resume_of_reads hp hr <;> cases e.symm.trans h
    exact ⟨_, hu⟩
  case false =>
    cases hw : s.phase.writes
    case true =>
      obtain ⟨u, e, hu⟩ := resume_of_writes hp hw
      cases e.symm.trans h
      exact ⟨_, hu⟩
    case false =>
      obtain ⟨u, e, hu⟩ := resume_quiet hp hb hr hw
      cases e.symm.trans h
      exact ⟨_, hu.toSteps⟩

section
variable {s : State} (hs : SendWindow s)
include hs

/-- A step to a label outside a round. `SendWindow` speaks of the parameters, the label and the working registers only, so this
rule serves any step that agrees on these. -/
theorem SendWindow.goto (p : Phase) (hp : p ≠ .sendRound := by nofun) (hq : p.inRound = false := by rfl) :
    SendWindow (s.goto p) := sendWindow_of_outside hs ⟨rfl, rfl, rfl⟩ hp hq

/-- SEND comes to its first round with `ACKED` = 0 and `REMAIN` = `LEN0` (R113). -/
theorem runSend_window : SendWindow (runSend s) := by
  unfold runSend
  split
  · exact hs.goto .none
  · obtain ⟨hl, -⟩ := hs
    exact ⟨hl, le_rfl, fun _ => ⟨BitVec.getLsbD_zero, BitVec.zero_ushiftRight⟩, nofun, nofun⟩

theorem runClose_window : SendWindow (runClose s) := by
  unfold runClose
  split
  · exact hs.goto .none
  · exact hs.goto .closeAttempt

/-- An issued command stands at the head of SEND's first round, or outside SEND's rounds (R104). -/
theorem exec_command_window {i : Instr} (hi : i.isFrame = false) : IfNext SendWindow (exec i s) := by
  cases i with
  | data | ack | fin | flag11 => cases hi
  | init | reset | isclosed | setclosed => exact ifNext_guardLaunch_next (hs.goto .none)
  | send n =>
    refine ifNext_guardLaunch ?_
    split
    · exact runSend_window (hs.goto .sendEntry)
    · trivial
  | recv n =>
    refine ifNext_guardLaunch ?_
    split
    · exact hs.goto .recvDrain
    · trivial
  | close => exact ifNext_guardLaunch_next (runClose_window (hs.goto .closeEntry))
  | wait => exact ifNext_guardLaunch_next (hs.goto .waitRead)

theorem stepIdle_window : IfNext SendWindow (stepIdle s) := by
  unfold stepIdle
  split
  case h_1 => exact hs
  case h_2 c rest _ => exact exec_command_window (s := s.take c rest) hs (decodeLaunch_isFrame _)

end

/-- Settles O52: a busy core's steps keep the window, and an idle core waits or issues a command. -/
theorem stepKeepsTheSendWindow : Obligations.StepKeepsTheSendWindow := by
  intro s t hs h
  by_cases ho : s.op = .idle
  · exact (stepIdle_window hs).elim (step_idle ho ▸ h)
  · obtain ⟨ch, hst⟩ := busy_step_steps ho h
    exact hst.window hs

end Sys2Proof.Machine
end

section
/-! PROOFS. The bits of `ACKED`: what the burst's test, the two marks and the advance say of each (R35, R116 to R121). -/

namespace Sys2Proof.Machine

/-! ### Each bit -/

theorem isAcked_or (a b : Word) (j : Nat) : isAcked (a ||| b) j = (isAcked a j || isAcked b j) := BitVec.getLsbD_or

theorem isAcked_and (a b : Word) (j : Nat) : isAcked (a &&& b) j = (isAcked a j && isAcked b j) := BitVec.getLsbD_and

theorem isAcked_ushiftRight (a : Word) (k j : Nat) : isAcked (a >>> k) j = isAcked a (k + j) :=
  BitVec.getLsbD_ushiftRight a k j

theorem isAcked_lowBits (n : Nat) {j : Nat} (hj : j < 32) : isAcked (lowBits n) j = decide (j < n) := by
  rw [isAcked, lowBits, BitVec.getLsbD_ofNat, Nat.testBit_two_pow_sub_one, decide_eq_true hj, Bool.true_and]

/-- The whole burst is acknowledged where each of its slots is (R116). -/
theorem burstAcked_iff (a : Word) {b : Nat} (hb : b ≤ 32) :
    burstAcked a b = true ↔ ∀ j < b, isAcked a j = true := by
  rw [burstAcked, beq_iff_eq]
  constructor
  · intro h j hj
    have hlow := isAcked_lowBits b (hj.trans_le hb)
    rw [decide_eq_true hj, ← h, isAcked_and, Bool.and_eq_true] at hlow
    exact hlow.1
  · intro h
    apply BitVec.eq_of_getLsbD_eq
    intro j hj
    change isAcked (a &&& lowBits b) j = isAcked (lowBits b) j
    rw [isAcked_and, isAcked_lowBits b hj]
    by_cases hjb : j < b
    · rw [h j hjb, Bool.true_and]
    · rw [decide_eq_false hjb, Bool.and_false]

/-- The selective mark sets the one bit it names, inside the burst (R117). -/
theorem isAcked_markOne (a : Word) {b : Nat} (hb : b ≤ 32) (d j : Nat) :
    isAcked (markOne a b d) j = (isAcked a j || (decide (j = d) && decide (d < b))) := by
  unfold markOne
  split
  case isTrue hd =>
    have hbit : isAcked (BitVec.ofNat 32 (2 ^ d)) j = decide (j = d) := by
      rw [isAcked, BitVec.getLsbD_ofNat, Nat.testBit_two_pow]
      by_cases hj : j = d
      · simp [hj]; omega
      · simp [hj, Ne.symm hj]
    rw [isAcked_or, hbit, decide_eq_true hd, Bool.and_true]
  case isFalse hd => simp [hd]

/-- The cumulative mark sets every bit below its offset, when that is inside the burst or just past it (R119). -/
theorem isAcked_markBelow (a : Word) (b d : Nat) {j : Nat} (hj : j < 32) :
    isAcked (markBelow a b d) j = (isAcked a j || (decide (j < d) && decide (d ≤ b))) := by
  unfold markBelow
  split
  case isTrue hd => rw [isAcked_or, isAcked_lowBits d hj, decide_eq_true hd.2, Bool.and_true]
  case isFalse hd =>
    have hnone : ¬(j < d ∧ d ≤ b) := fun h => hd ⟨by omega, h.2⟩
    rw [← Bool.decide_and, decide_eq_false hnone, Bool.or_false]

/-! ### The contiguous packets (R121) -/

theorem contiguous_succ_of_acked (n : Nat) {a : Word} (h : isAcked a 0 = true) :
    contiguous (n + 1) a = contiguous n (a >>> 1) + 1 := if_pos h

theorem contiguous_of_not_acked (n : Nat) {a : Word} (h : isAcked a 0 = false) : contiguous n a = 0 := by
  cases n with
  | zero => rfl
  | succ n => exact if_neg (Bool.eq_false_iff.mp h)

theorem contiguous_le (n : Nat) (a : Word) : contiguous n a ≤ n := by
  induction n generalizing a with
  | zero => exact le_rfl
  | succ n ih =>
    cases h : isAcked a 0 with
    | false => rw [contiguous_of_not_acked _ h]; exact Nat.zero_le _
    | true => rw [contiguous_succ_of_acked _ h]; exact Nat.succ_le_succ (ih _)

/-- Every packet the advance passes is acknowledged. -/
theorem isAcked_of_lt_contiguous {n : Nat} {a : Word} {j : Nat} (hj : j < contiguous n a) : isAcked a j = true := by
  induction n generalizing a j with
  | zero => exact absurd hj (Nat.not_lt_zero j)
  | succ n ih =>
    cases h : isAcked a 0 with
    | false => rw [contiguous_of_not_acked _ h] at hj; exact absurd hj (Nat.not_lt_zero j)
    | true =>
      cases j with
      | zero => exact h
      | succ j =>
        rw [contiguous_succ_of_acked _ h] at hj
        rw [Nat.add_comm, ← isAcked_ushiftRight]
        exact ih (Nat.lt_of_succ_lt_succ hj)

/-- The advance stops at the window's end or at an unacknowledged packet. -/
theorem contiguous_stops (n : Nat) (a : Word) : contiguous n a = n ∨ isAcked a (contiguous n a) = false := by
  induction n generalizing a with
  | zero => exact .inl rfl
  | succ n ih =>
    cases h : isAcked a 0 with
    | false => rw [contiguous_of_not_acked _ h]; exact .inr h
    | true =>
      rw [contiguous_succ_of_acked _ h, Nat.add_comm, ← isAcked_ushiftRight, Nat.add_comm]
      exact (ih (a >>> 1)).imp_left (congrArg Nat.succ)

/-- Where no bit is set at or above `b`, the advance passes at most `b` packets (R123 b). -/
theorem contiguous_le_of_ushiftRight (n : Nat) {a : Word} {b : Nat} (h : a >>> b = 0) : contiguous n a ≤ b := by
  by_contra hlt
  have hset : isAcked (a >>> b) 0 = true := by
    rw [isAcked_ushiftRight]
    exact isAcked_of_lt_contiguous (Nat.lt_of_not_le hlt)
  rw [h] at hset
  cases hset

end Sys2Proof.Machine
end

section
/-! PROOFS. SEND by its labels: the issue, the round's head, one slot of the burst, the wait's tests, the frames, the
advance (R113 to R121). -/

namespace Sys2Proof.Machine

/-! ### The step at each label of SEND (R18, R21) -/

section
variable {s : State} (ho : s.op = .send)
include ho

theorem step_send (hp : s.phase.op = .send) : step s = resume s := step_busy (by simp [ho]) (hp.trans ho.symm)

theorem step_sendRound (hp : s.phase = .sendRound) : step s = .next (stepSendRound s) := by
  rw [step_send ho (by rw [hp]; rfl), resume, hp]

theorem step_sendBurst {j : Nat} (hp : s.phase = .sendBurst j) : step s = .next (stepSendBurst j s) := by
  rw [step_send ho (by rw [hp]; rfl), resume, hp]

theorem step_sendWrite {j : Nat} (hp : s.phase = .sendWrite j) : step s = .next (stepSendWrite j s) := by
  rw [step_send ho (by rw [hp]; rfl), resume, hp]

theorem step_sendWait (hp : s.phase = .sendWait) : step s = .next (stepSendWait s) := by
  rw [step_send ho (by rw [hp]; rfl), resume, hp]

theorem step_sendRead (hp : s.phase = .sendRead) : step s = stepSendRead s := by
  rw [step_send ho (by rw [hp]; rfl), resume, hp]

theorem step_sendPass (hp : s.phase = .sendPass) : step s = stepPass s := by
  rw [step_send ho (by rw [hp]; rfl), resume, hp]

theorem step_sendEcho (hp : s.phase = .sendEcho) : step s = .next (stepSendEcho s) := by
  rw [step_send ho (by rw [hp]; rfl), resume, hp]

theorem step_sendAdvance (hp : s.phase = .sendAdvance) : step s = .next (stepSendAdvance s) := by
  rw [step_send ho (by rw [hp]; rfl), resume, hp]

theorem step_sendDone (hp : s.phase = .sendDone) : step s = .next (sendReturn s) := by
  rw [step_send ho (by rw [hp]; rfl), resume, hp]

end

/-- A run begins with a step. -/
theorem run_of_step {s t : State} (h : step s = .next t) (n : Nat) : run (n + 1) s = run n t := by
  rw [run, h]

/-! ### The write of a frame just made (R48, R95) -/

section
variable {k : State → State} {flag : Byte} {seq ack : Seq} {pl : List Byte} {p : Phase} {s : State}

theorem chanWrite_txFrame_of_ok (h : s.writeAnswer = .ok) :
    chanWrite k (txFrame flag seq ack pl p s) =
      k { txFrame flag seq ack pl p s with chan := (s.logWrite (encodeFrame flag seq ack pl)).chan } := by
  obtain ⟨-, e⟩ | ⟨h', -⟩ := chanWrite_cases k (txFrame flag seq ack pl p s)
  · rw [e, txFrame_txBytes]; rfl
  · cases h'.symm.trans h

theorem chanWrite_txFrame_of_err (h : s.writeAnswer = .err) :
    chanWrite k (txFrame flag seq ack pl p s) =
      State.raise .tx { txFrame flag seq ack pl p s with chan := (s.logWrite (encodeFrame flag seq ack pl)).chan } := by
  obtain ⟨h', -⟩ | ⟨-, e⟩ := chanWrite_cases k (txFrame flag seq ack pl p s)
  · cases h'.symm.trans h
  · rw [e, txFrame_txBytes]; rfl

end

/-- The flag byte as a number: the tag above the two class bits (R61). -/
theorem mkFlag_eq_ofNat (t : BitVec 6) (cls : BitVec 2) : mkFlag t cls = BitVec.ofNat 8 (4 * t.toNat + cls.toNat) := by
  apply BitVec.eq_of_toNat_eq
  have ht : t.toNat < 64 := t.isLt
  have hc : cls.toNat < 4 := cls.isLt
  have happ : (t ++ cls).toNat = 4 * t.toNat + cls.toNat := by
    rw [BitVec.toNat_append, ← Nat.shiftLeft_add_eq_or_of_lt cls.isLt, Nat.shiftLeft_eq]
    omega
  rw [mkFlag, happ, BitVec.toNat_ofNat, Nat.mod_eq_of_lt (by omega)]

theorem flagData_eq_ofNat (c : Config) : flagData c = BitVec.ofNat 8 (4 * c.tag.toNat) := mkFlag_eq_ofNat c.tag 0

theorem flagFin_eq_ofNat (c : Config) : flagFin c = BitVec.ofNat 8 (4 * c.tag.toNat + 2) := mkFlag_eq_ofNat c.tag 2

/-! ### The issue (R113) -/

theorem runSend_of_closed {s : State} (h : s.conn.closed = true) : runSend s = s.raise .final := if_pos h

theorem runSend_of_open {s : State} (h : s.conn.closed = false) :
    runSend s =
      { s with
        phase := .sendRound
        rx := s.rx.discard
        work :=
          { s.work with
            len0 := s.args.arg0.toNat, remain := s.args.arg0.toNat, acked := 0, retry := 0 } } :=
  if_neg (Bool.eq_false_iff.mp h)

/-- SEND issued with `L` = `n`, at its first label (R104, R113). -/
def State.issueSend (n : Word) (s : State) : State :=
  { s.issue .send .sendEntry with args := { s.args with arg0 := n } }

theorem exec_send_of_idle {s : State} {n : Word} (ho : s.op = .idle) (hi : s.inited = true) (hn : n.toNat < 2 ^ 31) :
    exec (.send n) s = .next (runSend (s.issueSend n)) := by
  have hd : countInDomain n = true := decide_eq_true hn
  rw [exec, execSend, guardLaunch_of_idle ho fun _ => hi, if_pos hd, State.issueSend]

/-- Settles O20: SEND passes the launch test and the domain's, and runs its entry. -/
theorem sendIsIssued : Obligations.SendIsIssued := by
  intro s n ho hi hn
  rw [exec_send_of_idle ho hi hn]
  cases hc : s.conn.closed with
  | true =>
    rw [runSend_of_closed (s := s.issueSend n) hc]
    exact congrArg Host.Outcome.next (endWith_of_idle (s := { s with args := { s.args with arg0 := n } }) ho (-3))
  | false =>
    rw [runSend_of_open (s := s.issueSend n) hc]
    rfl

/-! ### The head of the round (R113, R114) -/

section
variable {c : Config} {r : Nat} (hc : c.Legal)
include hc

theorem ceil_maxp_le_iff (n : Nat) : (r + c.maxp - 1) / c.maxp ≤ n ↔ r ≤ c.maxp * n := by
  obtain ⟨-, hm, -, -⟩ := hc
  rw [← Nat.ceilDiv_eq_add_pred_div]
  exact ceilDiv_le_iff_le_mul hm

/-- A burst shorter than the window carries everything that is left. -/
theorem burstCount_eq_or (r : Nat) :
    burstCount c r = c.w ∨ (burstCount c r < c.w ∧ r ≤ burstCount c r * c.maxp) := by
  have hceil : r ≤ c.maxp * ((r + c.maxp - 1) / c.maxp) := (ceil_maxp_le_iff hc _).mp le_rfl
  unfold burstCount
  by_cases hle : c.w ≤ (r + c.maxp - 1) / c.maxp
  · exact .inl (Nat.min_eq_left hle)
  · rw [Nat.min_eq_right (by omega), Nat.mul_comm]
    exact .inr ⟨by omega, hceil⟩

/-- Every packet of the burst carries something: the packets before the last do not carry everything. -/
theorem pred_burstCount_mul_lt (hr : 0 < r) : (burstCount c r - 1) * c.maxp < r := by
  have hpos := burstCount_pos hc hr
  have hle : burstCount c r ≤ (r + c.maxp - 1) / c.maxp := Nat.min_le_right ..
  by_contra h
  have hceil := (ceil_maxp_le_iff hc (r := r) (burstCount c r - 1)).mpr (by rw [Nat.mul_comm]; omega)
  omega

end

theorem stepSendRound_of_pos {s : State} (h : 0 < s.work.remain) :
    stepSendRound s =
      { s with phase := .sendBurst 0, work := { s.work with burstI := burstCount s.cfg s.work.remain } } := if_pos h

theorem stepSendRound_of_zero {s : State} (h : s.work.remain = 0) : stepSendRound s = s.goto .sendDone :=
  if_neg (by omega)

/-- With nothing left to send the round's head returns what was sent (R113). -/
theorem run_sendRound_of_zero {s : State} (ho : s.op = .send) (hp : s.phase = .sendRound) (h : s.work.remain = 0) :
    run 2 s = .next (sendReturn s) := by
  have hdone := step_sendDone (s := s.goto .sendDone) ho rfl
  rw [run_of_step (step_sendRound ho hp), stepSendRound_of_zero h, run_of_step hdone]
  rfl

/-- Settles O24: the burst's count is `burstCount`, whose bounds are those of min(`W`, ceil(`REMAIN` / `MAXP`)). -/
theorem roundBeginsOrEnds : Obligations.RoundBeginsOrEnds := by
  intro s ho hp hc
  refine ⟨fun hr => ?_, fun hr => run_sendRound_of_zero ho hp hr⟩
  have hlast := pred_burstCount_mul_lt hc hr
  refine ⟨burstCount s.cfg s.work.remain, ?_, burstCount_pos hc hr, Nat.min_le_left .., hlast, ?_⟩
  · exact (burstCount_eq_or hc s.work.remain).imp_right fun ⟨hlt, hle⟩ => ⟨hlt, hle, hlast⟩
  · rw [step_sendRound ho hp, stepSendRound_of_pos hr]

/-! ### One slot of the burst (R114) -/

section
variable {s : State} {j : Nat}

theorem stepSendBurst_of_acked (hj : j < s.work.burstI) (ha : isAcked s.work.acked j = true) :
    stepSendBurst j s = s.goto (.sendBurst (j + 1)) := by
  rw [stepSendBurst, if_pos hj, if_pos ha]

theorem stepSendBurst_of_unacked (hj : j < s.work.burstI) (ha : isAcked s.work.acked j = false) :
    stepSendBurst j s = txDataFrame j (burstPayload s j) (.sendWrite j) s := by
  rw [stepSendBurst, if_pos hj, if_neg (Bool.eq_false_iff.mp ha)]

theorem stepSendBurst_of_end :
    stepSendBurst s.work.burstI s =
      { s with phase := .sendWait, work := { s.work with retry := s.work.retry + 1, ticks := 0 } } :=
  if_neg (Nat.lt_irrefl _)

end

/-- Settles O25: the slot's frame is made, and the write that follows is of that frame. -/
theorem burstWritesOneSlot : Obligations.BurstWritesOneSlot := by
  intro s j ho hp hj ha
  have hwrite := step_sendWrite (s := txDataFrame j (burstPayload s j) (.sendWrite j) s) ho rfl
  refine ⟨burstPayload s j, s.burstFrame j, txDataFrame j (burstPayload s j) (.sendWrite j) s, _, rfl, ?_, rfl, rfl, ?_,
    fun h => ?_, fun h => ?_⟩
  · rw [State.burstFrame, flagData_eq_ofNat]
  · rw [step_sendBurst ho hp, stepSendBurst_of_unacked hj ha]
  · rw [hwrite, stepSendWrite, txDataFrame, chanWrite_txFrame_of_ok h]
    rfl
  · rw [hwrite, stepSendWrite, txDataFrame, chanWrite_txFrame_of_err h]
    rfl

/-! ### The wait's tests (R116, R120) -/

section
variable {s : State}

theorem stepSendWait_of_left (h : burstAcked s.work.acked s.work.burstI = true ∨ s.conn.closed = true) :
    stepSendWait s = leaveSendWait s := if_pos (Bool.or_eq_true_iff.mpr h)

theorem stepSendWait_of_stays (ha : burstAcked s.work.acked s.work.burstI = false) (hc : s.conn.closed = false) :
    stepSendWait s = s.goto .sendRead := if_neg (by simp [ha, hc])

theorem leaveSendWait_of_lt (h : s.work.retry < s.conn.maxRetrans) : leaveSendWait s = s.goto .sendAdvance :=
  if_neg (BitVec.not_le.mpr h)

end

/-- Settles O27: the first leave-test is that every bit of the burst is set. -/
theorem waitForAckIsLeft : Obligations.WaitForAckIsLeft := by
  intro s ho hp hb
  refine ⟨fun h => ?_, fun ⟨j, hj, ha⟩ hc => ?_⟩
  · rw [step_sendWait ho hp, stepSendWait_of_left (h.imp_left (burstAcked_iff _ hb).mpr)]
    rfl
  · have hnot : burstAcked s.work.acked s.work.burstI = false := by
      rw [← Bool.not_eq_true, burstAcked_iff _ hb]
      exact fun hall => Bool.eq_false_iff.mp ha (hall j hj)
    rw [step_sendWait ho hp, stepSendWait_of_stays hnot hc]
    rfl

/-! ### The advance (R121) -/

theorem stepSendAdvance_eq (s : State) :
    stepSendAdvance s = (advance s).goto (if s.conn.closed then .sendDone else .sendRound) := by
  unfold stepSendAdvance
  split <;> rfl

/-- Settles O28: the packets passed are `contiguous`'s. -/
theorem advanceSlidesTheWindow : Obligations.AdvanceSlidesTheWindow := by
  intro s ho hp
  refine ⟨contiguous s.cfg.w s.work.acked, contiguous_le .., fun j => isAcked_of_lt_contiguous, contiguous_stops ..,
    contiguous_le_of_ushiftRight _, ?_⟩
  rw [step_sendAdvance ho hp, stepSendAdvance_eq]
  rfl

/-! ### The frames (R117 to R119) -/

/-- Settles O29: the mark of an ACK frame is `markOne`'s, and a data frame makes none. -/
theorem ackAndDataFramesInSend : Obligations.AckAndDataFramesInSend := by
  intro s q a pl ho hp hb
  exact ⟨dataMeaning_send ho hp q pl, _, fun j _ => isAcked_markOne s.work.acked hb _ j, ackMeaning_send ho hp a⟩

/-- A FIN frame's bookkeeping and cumulative mark, before the echo is made (R116, R119). -/
def State.finMarked (ack : Seq) (s : State) : State :=
  { s with work :=
    { s.work with ticks := 0, retry := 0, acked := markBelow s.work.acked s.work.burstI (seqOffset ack s.conn.seq) } }

theorem sendFinArm_eq (seq ack : Seq) (s : State) :
    sendFinArm seq ack s = txFrame (flagFin s.cfg) seq ack [] .sendEcho (s.finMarked ack) := rfl

/-- Settles O30: the mark of a FIN frame is `markBelow`'s, and the echo made is what the write that follows writes. -/
theorem finFrameInSend : Obligations.FinFrameInSend := by
  intro s q a pl ho hp _
  have hecho := step_sendEcho (s := sendFinArm q a s) ho rfl
  refine ⟨_, encodeFrame (flagFin s.cfg) q a [], sendFinArm q a s, _,
    fun j hj => isAcked_markBelow s.work.acked s.work.burstI _ hj, ?_, rfl, rfl, finMeaning_send ho hp q a,
    fun h => ?_, fun h => ?_⟩
  · rw [flagFin_eq_ofNat]
  · rw [hecho, stepSendEcho, sendFinArm_eq, chanWrite_txFrame_of_ok (s := s.finMarked a) h]
    rfl
  · rw [hecho, stepSendEcho, sendFinArm_eq, chanWrite_txFrame_of_err (s := s.finMarked a) h]
    rfl

end Sys2Proof.Machine
end

section
/-! PROOFS. The burst whole: the frames it writes when every write is answered `Ok` (R114, R115). -/

namespace Sys2Proof.Machine

/-! ### What the burst's writes leave alone -/

/-- From `s` to `t` the burst wrote the frames `fs`, each answered `Ok`, and touched nothing but `PHASE`, `TXBUF` and the
channel. -/
structure BurstWrote (fs : List (List Byte)) (s t : State) : Prop where
  op : t.op = s.op
  cfg : t.cfg = s.cfg
  conn : t.conn = s.conn
  work : t.work = s.work
  rx : t.rx = s.rx
  txdata : t.txdata = s.txdata
  reads : t.chan.reads = s.chan.reads
  writes : t.chan.writes = s.chan.writes.drop fs.length
  trace : t.chan.trace = (fs.map fun f => Transaction.write s.conn.ctx f .ok).reverse ++ s.chan.trace

section
variable {fs gs : List (List Byte)} {s t u : State}

theorem BurstWrote.nothing (p : Phase) : BurstWrote [] s (s.goto p) := ⟨rfl, rfl, rfl, rfl, rfl, rfl, rfl, rfl, rfl⟩

theorem BurstWrote.trans (h : BurstWrote fs s t) (h' : BurstWrote gs t u) : BurstWrote (fs ++ gs) s u where
  op := h'.op.trans h.op
  cfg := h'.cfg.trans h.cfg
  conn := h'.conn.trans h.conn
  work := h'.work.trans h.work
  rx := h'.rx.trans h.rx
  txdata := h'.txdata.trans h.txdata
  reads := h'.reads.trans h.reads
  writes := by rw [h'.writes, h.writes, List.drop_drop, List.length_append]
  trace := by rw [h'.trace, h.trace, h.conn, List.map_append, List.reverse_append, List.append_assoc]

/-- The frames still to write are made of what the writes leave alone. -/
theorem BurstWrote.unackedFrames (h : BurstWrote fs s t) (lo n : Nat) : t.unackedFrames lo n = s.unackedFrames lo n := by
  induction n generalizing lo with
  | zero => rfl
  | succ n ih =>
    simp only [State.unackedFrames, State.burstFrame, burstPayload, h.cfg, h.conn, h.work, h.txdata, ih]

end

/-! ### The frames of the burst -/

section
variable {s : State} {j : Nat}

theorem unackedFrames_succ (n : Nat) : s.unackedFrames j (n + 1) = s.unackedFrames j 1 ++ s.unackedFrames (j + 1) n := by
  simp only [State.unackedFrames, List.append_nil]

theorem unackedFrames_one_of_acked (h : isAcked s.work.acked j = true) : s.unackedFrames j 1 = [] := by
  simp only [State.unackedFrames, if_pos h, List.append_nil]

theorem unackedFrames_one_of_unacked (h : isAcked s.work.acked j = false) : s.unackedFrames j 1 = [s.burstFrame j] := by
  simp only [State.unackedFrames, h, Bool.false_eq_true, if_false, List.append_nil]

/-! ### The burst -/

theorem writeAnswer_of_script {a : WriteAnswer} {ws : List WriteAnswer} (h : s.chan.writes = a :: ws) :
    s.writeAnswer = a := by
  simp only [State.writeAnswer, h]

/-- The state after slot j's frame was made, written and answered `Ok`, at the next slot (R114). -/
def State.slotWritten (j : Nat) (s : State) : State :=
  State.goto (.sendBurst (j + 1))
    { txDataFrame j (burstPayload s j) (.sendWrite j) s with chan := (s.logWrite (s.burstFrame j)).chan }

theorem run_slotWritten (ho : s.op = .send) (hp : s.phase = .sendBurst j) (hj : j < s.work.burstI)
    (ha : isAcked s.work.acked j = false) (hw : s.writeAnswer = .ok) : run 2 s = .next (s.slotWritten j) := by
  have hwrite := step_sendWrite (s := txDataFrame j (burstPayload s j) (.sendWrite j) s) ho rfl
  rw [run_of_step (step_sendBurst ho hp), stepSendBurst_of_unacked hj ha, run_of_step hwrite, stepSendWrite, txDataFrame,
    chanWrite_txFrame_of_ok hw]
  rfl

theorem burstWrote_slotWritten (hw : s.writeAnswer = .ok) : BurstWrote [s.burstFrame j] s (s.slotWritten j) where
  op := rfl
  cfg := rfl
  conn := rfl
  work := rfl
  rx := rfl
  txdata := rfl
  reads := rfl
  writes := List.drop_one.symm
  trace := by
    change Transaction.write _ _ s.writeAnswer :: _ = _
    rw [hw]
    rfl

/-- One slot of the burst: an acknowledged one is passed over, for any other its frame is written (R115). -/
theorem run_slot {ws : List WriteAnswer} (ho : s.op = .send) (hp : s.phase = .sendBurst j) (hj : j < s.work.burstI)
    (hw : s.chan.writes = List.replicate (s.unackedFrames j 1).length .ok ++ ws) :
    ∃ t, run (1 + (s.unackedFrames j 1).length) s = .next t ∧ t.phase = .sendBurst (j + 1) ∧
      BurstWrote (s.unackedFrames j 1) s t := by
  cases ha : isAcked s.work.acked j with
  | true =>
    rw [unackedFrames_one_of_acked ha]
    refine ⟨s.goto (.sendBurst (j + 1)), ?_, rfl, .nothing _⟩
    rw [List.length_nil, run_of_step (step_sendBurst ho hp), stepSendBurst_of_acked hj ha]
    rfl
  | false =>
    rw [unackedFrames_one_of_unacked ha] at hw ⊢
    have hok := writeAnswer_of_script hw
    exact ⟨s.slotWritten j, run_slotWritten ho hp hj ha hok, rfl, burstWrote_slotWritten hok⟩

/-- The last `n` slots of the burst, by induction on their number. -/
theorem run_slots {n : Nat} {ws : List WriteAnswer} (ho : s.op = .send) (hp : s.phase = .sendBurst j)
    (hj : j + n = s.work.burstI) (hw : s.chan.writes = List.replicate (s.unackedFrames j n).length .ok ++ ws) :
    ∃ t, run (n + (s.unackedFrames j n).length) s = .next t ∧ t.phase = .sendBurst s.work.burstI ∧
      BurstWrote (s.unackedFrames j n) s t := by
  induction n generalizing s j with
  | zero => exact ⟨s.goto s.phase, rfl, by rw [← hj]; exact hp, .nothing _⟩
  | succ n ih =>
    rw [unackedFrames_succ] at hw ⊢
    rw [List.length_append, List.replicate_add, List.append_assoc] at hw
    obtain ⟨t, hrun, hpt, ht⟩ := run_slot ho hp (by omega) hw
    have hwt : t.chan.writes = List.replicate (t.unackedFrames (j + 1) n).length .ok ++ ws := by
      rw [ht.writes, ht.unackedFrames, hw, List.drop_left' List.length_replicate]
    obtain ⟨u, hrunu, hpu, hu⟩ := ih (ht.op.trans ho) hpt (by rw [ht.work]; omega) hwt
    rw [ht.unackedFrames] at hrunu hu
    refine ⟨u, ?_, by rw [hpu, ht.work], ht.trans hu⟩
    rw [← hrunu, ← run_add hrun, List.length_append]
    congr 1
    omega

/-- The burst whole, and the start of the wait after it (R114, R116, R120). -/
theorem run_burst {ws : List WriteAnswer} (ho : s.op = .send) (hp : s.phase = .sendBurst 0)
    (hw : s.chan.writes = List.replicate (s.unackedFrames 0 s.work.burstI).length .ok ++ ws) :
    ∃ t, BurstWrote (s.unackedFrames 0 s.work.burstI) s t ∧
      run (s.work.burstI + (s.unackedFrames 0 s.work.burstI).length + 1) s =
        .next { t with phase := .sendWait, work := { s.work with retry := s.work.retry + 1, ticks := 0 } } := by
  obtain ⟨t, hrun, hpt, ht⟩ := run_slots ho hp (Nat.zero_add _) hw
  refine ⟨t, ht, ?_⟩
  rw [← ht.work] at hpt
  rw [run_add hrun, run_of_step (step_sendBurst (ht.op.trans ho) hpt), stepSendBurst_of_end, ht.work]
  rfl

end

/-- Settles O26: the burst's slots are passed in ascending order, each by its own frame or none. -/
theorem burstWritesExactlyTheUnacknowledged : Obligations.BurstWritesExactlyTheUnacknowledged := by
  intro s ws ho hp hw
  obtain ⟨t, ht, hrun⟩ := run_burst ho hp hw
  refine ⟨_, hrun, ht.trace, ht.op.trans ho, rfl, rfl, ht.conn, ht.rx, ?_, ht.reads⟩
  exact ht.writes.trans (by rw [hw, List.drop_left' List.length_replicate])

end Sys2Proof.Machine
end

section
/-! PROOFS. A SEND of one packet, from its issue to its return (R113 to R121). -/

namespace Sys2Proof.Machine

/-! ### An ACK frame is the next thing read (R99, R101, R116, R117) -/

/-- DECODE of an ACK frame alone. -/
theorem decodeFrame_ackFrame {c : Config} (hc : c.Legal) (q a : Seq) :
    decodeFrame c (encodeFrame (flagAck c) q a []) =
      .packet { flag := flagAck c, seq := q, ack := a, payload := [] } 9 := by
  obtain ⟨-, -, hmaxp, -⟩ := hc
  have h := decodeFrame_encodeFrame_append (payload := []) q a [] hmaxp (tagOf_mkFlag c.tag 0b01) (Nat.zero_le _)
  rwa [List.append_nil] at h

/-- A packet with the ACK flag is an ACK frame (R66). -/
theorem instr_ackFrame (c : Config) (q a : Seq) (pl : List Byte) :
    Packet.instr { flag := flagAck c, seq := q, ack := a, payload := pl } = .ack q a pl := by
  simp [Packet.instr, flagAck]

section
variable {s : State} {q a : Seq}

theorem stepPass_of_needMore (h : decodeFrame s.cfg s.rx.bytes = .needMore) :
    stepPass s = .next (s.goto s.phase.afterPass) := by
  simp only [stepPass, nextFrame, h]

/-- A decode pass over one ACK frame marks it, finds nothing more, and ends. -/
theorem run_sendPass_ack (ho : s.op = .send) (hp : s.phase = .sendPass) (hc : s.cfg.Legal)
    (hb : s.rx.bytes = encodeFrame (flagAck s.cfg) q a []) :
    run 2 s = .next ((sendAckArm a { s with rx := s.rx.consume 9 }).goto .sendWait) := by
  have hmark : step s = .next (sendAckArm a { s with rx := s.rx.consume 9 }) := by
    rw [step_sendPass ho hp, stepPass_of_packet (hb ▸ decodeFrame_ackFrame hc q a), instr_ackFrame]
    exact ackMeaning_send (s := { s with rx := s.rx.consume 9 }) ho hp a
  have hempty : (s.rx.consume 9).bytes = [] := by
    rw [RxBuf.consume_bytes, hb]
    exact List.drop_eq_nil_of_le (length_encodeFrame ..).le
  have hmore : decodeFrame s.cfg (s.rx.consume 9).bytes = .needMore := by rw [hempty]; rfl
  have hend :=
    (step_sendPass (s := sendAckArm a { s with rx := s.rx.consume 9 }) ho hp).trans (stepPass_of_needMore hmore)
  rw [run_of_step hmark, run_of_step hend, run, show (sendAckArm a { s with rx := s.rx.consume 9 }).phase = _ from hp]
  rfl

/-- The state after SEND read an ACK frame into an empty `RXBUF` and marked it, at the wait's head again (R116, R117). -/
def State.ackRead (q a : Seq) (s : State) : State :=
  { s with
    phase := .sendWait
    rx := (s.rx.append (encodeFrame (flagAck s.cfg) q a [])).consume 9
    chan := (s.logRead s.room).chan
    work :=
      { s.work with ticks := 0, retry := 0, acked := markOne s.work.acked s.work.burstI (seqOffset a s.conn.seq) } }

theorem ackRead_acked : (s.ackRead q a).work.acked = markOne s.work.acked s.work.burstI (seqOffset a s.conn.seq) := rfl

theorem run_ackRead {rs : List ReadAnswer} (ho : s.op = .send) (hp : s.phase = .sendWait) (hc : s.cfg.Legal)
    (ha : burstAcked s.work.acked s.work.burstI = false) (hcl : s.conn.closed = false) (hrx : s.rx.fill = 0)
    (hr : s.chan.reads = .bytes (encodeFrame (flagAck s.cfg) q a []) :: rs) :
    run 4 s = .next (s.ackRead q a) := by
  obtain ⟨-, -, -, hcap⟩ := id hc
  have hfits : (encodeFrame (flagAck s.cfg) q a []).length ≤ s.room := by
    rw [length_encodeFrame, State.room, hrx, List.length_nil]; omega
  have hgot : step (s.goto .sendRead) = .next (State.goto .sendPass
      { s.logRead s.room with rx := s.rx.append (encodeFrame (flagAck s.cfg) q a []) }) := by
    rw [step_sendRead (s := s.goto .sendRead) ho rfl, stepSendRead,
      rxRead_of_bytes (s := s.goto .sendRead) (readAnswer_of_script hr _) hfits]
    rfl
  have hbytes : (s.rx.append (encodeFrame (flagAck s.cfg) q a [])).bytes = encodeFrame (flagAck s.cfg) q a [] := by
    have hempty : s.rx.bytes = [] := by rw [RxBuf.bytes, hrx]; rfl
    rw [RxBuf.append_bytes, hempty, List.nil_append]
  rw [run_of_step (step_sendWait ho hp), stepSendWait_of_stays ha hcl, run_of_step hgot]
  exact run_sendPass_ack ho rfl hc hbytes

end

/-! ### The whole burst is acknowledged, and it was the last -/

/-- The wait is left, the window is advanced, and with nothing left to send SEND returns (R113, R116, R121). -/
theorem run_lastAdvance {s : State} (ho : s.op = .send) (hp : s.phase = .sendWait)
    (ha : burstAcked s.work.acked s.work.burstI = true) (hcl : s.conn.closed = false)
    (hretry : s.work.retry < s.conn.maxRetrans) (hrem : (advance s).work.remain = 0) :
    run 4 s = .next (sendReturn (advance s)) := by
  have hadv : step (s.goto .sendAdvance) = .next ((advance s).goto .sendRound) := by
    rw [step_sendAdvance (s := s.goto .sendAdvance) ho rfl, stepSendAdvance_eq, State.goto_conn, hcl]
    rfl
  rw [run_of_step (step_sendWait ho hp), stepSendWait_of_left (.inl ha), leaveSendWait_of_lt hretry, run_of_step hadv]
  exact run_sendRound_of_zero (s := (advance s).goto .sendRound) ho rfl hrem

theorem burstCount_eq_one {c : Config} {r : Nat} (hc : c.Legal) (hr : 0 < r) (hle : r ≤ c.maxp) :
    burstCount c r = 1 := by
  have hceil := (ceil_maxp_le_iff hc (r := r) 1).mpr (by omega)
  exact le_antisymm ((Nat.min_le_right ..).trans hceil) (burstCount_pos hc hr)

theorem seqOffset_self (q : Seq) : seqOffset q q = 0 := congrArg BitVec.toNat (BitVec.sub_self q)

/-- With bit 0 alone set the advance passes one packet. -/
theorem contiguous_one {n : Nat} (hn : 0 < n) : contiguous n 1 = 1 := by
  obtain ⟨n, rfl⟩ := Nat.exists_eq_succ_of_ne_zero hn.ne'
  rw [Nat.succ_eq_add_one, contiguous_succ_of_acked n (by decide), contiguous_of_not_acked n (by decide)]

theorem advance_remain (s : State) :
    (advance s).work.remain = s.work.remain - contiguous s.cfg.w s.work.acked * s.cfg.maxp := rfl

theorem advance_conn (s : State) :
    (advance s).conn = { s.conn with seq := s.conn.seq + BitVec.ofNat 16 (contiguous s.cfg.w s.work.acked) } := rfl

/-- In the wait for the one packet of the last burst, its ACK being the next thing read, SEND returns `LEN0` (R116,
R117, R121). -/
theorem run_onePacketAcked {s : State} {q : Seq} {rs : List ReadAnswer} (ho : s.op = .send) (hp : s.phase = .sendWait)
    (hc : s.cfg.Legal) (hb : s.work.burstI = 1) (ha : s.work.acked = 0) (hcl : s.conn.closed = false)
    (hrx : s.rx.fill = 0) (hretrans : 0 < s.conn.maxRetrans) (hle : s.work.remain ≤ s.cfg.maxp)
    (hr : s.chan.reads = .bytes (encodeFrame (flagAck s.cfg) q s.conn.seq []) :: rs) :
    ∃ t, run 8 s = .next t ∧ t.op = .idle ∧ t.result = BitVec.ofNat 32 s.work.len0 ∧
      t.conn = { s.conn with seq := s.conn.seq + 1 } ∧ t.chan.reads = rs ∧ t.chan.writes = s.chan.writes ∧
      t.chan.trace =
        .read s.conn.ctx s.cfg.rxcap (.bytes (encodeFrame (flagAck s.cfg) q s.conn.seq [])) :: s.chan.trace := by
  have hwait : burstAcked s.work.acked s.work.burstI = false := by rw [ha, hb]; decide
  have hmark : (s.ackRead q s.conn.seq).work.acked = 1 := by
    rw [ackRead_acked, ha, hb, seqOffset_self]; decide
  have hleft : burstAcked (s.ackRead q s.conn.seq).work.acked s.work.burstI = true := by rw [hmark, hb]; decide
  have hone : contiguous (s.ackRead q s.conn.seq).cfg.w (s.ackRead q s.conn.seq).work.acked = 1 := by
    rw [hmark]; exact contiguous_one (slots_pos hc)
  have hrem : (advance (s.ackRead q s.conn.seq)).work.remain = 0 := by
    rw [advance_remain, hone, Nat.one_mul]; exact Nat.sub_eq_zero_of_le hle
  refine ⟨_, (run_add (run_ackRead ho hp hc hwait hcl hrx hr)).trans
    (run_lastAdvance (s := s.ackRead q s.conn.seq) ho rfl hleft hcl hretrans hrem), rfl, ?_, ?_, ?_, rfl, ?_⟩
  · rw [sendReturn, State.finish_result, hrem]; rfl
  · rw [sendReturn, State.finish_conn, advance_conn, hone]; rfl
  · exact congrArg List.tail hr
  · have hroom : s.room = s.cfg.rxcap := by rw [State.room, hrx, Nat.sub_zero]
    change Transaction.read s.conn.ctx s.room (s.readAnswer s.room) :: s.chan.trace = _
    rw [readAnswer_of_script hr, hroom]

/-! ### From the issue to the wait (R113, R114) -/

/-- SEND issued with `L` = `n`, at the first slot of its first burst, one packet long. -/
def State.onePacketBurst (n : Word) (s : State) : State :=
  { s.issueSend n with
    phase := .sendBurst 0
    rx := s.rx.discard
    work := { s.work with len0 := n.toNat, remain := n.toNat, acked := 0, retry := 0, burstI := 1 } }

section
variable {s : State} {n : Word}

theorem run_onePacketBurst {s1 : State} (hc : s.cfg.Legal) (ho : s.op = .idle) (hi : s.inited = true)
    (hcl : s.conn.closed = false) (hpos : 0 < n.toNat) (hle : n.toNat ≤ s.cfg.maxp) (h : exec (.send n) s = .next s1) :
    run 1 s1 = .next (s.onePacketBurst n) := by
  obtain ⟨-, -, hmaxp, -⟩ := id hc
  rw [exec_send_of_idle ho hi (by omega), runSend_of_open (s := s.issueSend n) hcl] at h
  cases h
  rw [run_of_step (step_sendRound rfl rfl), stepSendRound_of_pos hpos]
  change Host.Outcome.next { s.onePacketBurst n with
    work := { (s.onePacketBurst n).work with burstI := burstCount s.cfg n.toNat } } = _
  rw [burstCount_eq_one hc hpos hle]
  rfl

/-- The burst's one frame carries all of `TXDATA`'s `n` bytes (R114). -/
theorem unackedFrames_onePacketBurst (hle : n.toNat ≤ s.cfg.maxp) :
    (s.onePacketBurst n).unackedFrames 0 (s.onePacketBurst n).work.burstI =
      [encodeFrame (flagData s.cfg) s.conn.seq s.conn.ack (s.txdata.readBytes 0 n.toNat)] := by
  have hpay : burstPayload (s.onePacketBurst n) 0 = s.txdata.readBytes 0 n.toNat := by
    change s.txdata.readBytes (n.toNat - n.toNat + 0 * s.cfg.maxp)
      (min ((0 + 1) * s.cfg.maxp) n.toNat - 0 * s.cfg.maxp) = _
    congr 1 <;> simp [hle]
  have hseq : s.conn.seq + BitVec.ofNat 16 0 = s.conn.seq := BitVec.add_zero _
  have hbit : isAcked (s.onePacketBurst n).work.acked 0 = false := BitVec.getLsbD_zero
  change (s.onePacketBurst n).unackedFrames 0 1 = _
  rw [unackedFrames_one_of_unacked hbit, State.burstFrame, hpay]
  exact congrArg (fun q => [encodeFrame (flagData s.cfg) q s.conn.ack _]) hseq

end

/-- Settles O33: the burst writes the one frame, and the wait that follows reads its ACK. -/
theorem sendOfOnePacketCompletes : Obligations.SendOfOnePacketCompletes := by
  intro s s1 n q rs ws hc ho hi hcl hretrans hpos hle hr hw hs1
  have hstart := run_onePacketBurst hc ho hi hcl hpos hle hs1
  have hframe := unackedFrames_onePacketBurst (s := s) hle
  have hcount := congrArg List.length hframe
  obtain ⟨t, ht, hburst⟩ := run_burst (s := s.onePacketBurst n) rfl rfl (by rw [hcount]; exact hw)
  have hcfg : t.cfg = s.cfg := ht.cfg
  have hconn : t.conn = s.conn := ht.conn
  have hreads : t.chan.reads = s.chan.reads := ht.reads
  have hfill : t.rx.fill = 0 := congrArg RxBuf.fill ht.rx
  have hretry : 0 < t.conn.maxRetrans := by rw [hconn]; exact BitVec.lt_def.mpr hretrans
  have hack : t.chan.reads = .bytes (encodeFrame (flagAck t.cfg) q t.conn.seq []) :: rs := by rw [hreads, hcfg, hconn, hr]
  obtain ⟨v, hend, hop, hres, hvconn, hvreads, hvwrites, hvtrace⟩ := run_onePacketAcked
    (s := { t with phase := .sendWait, work := { (s.onePacketBurst n).work with retry := 0 + 1, ticks := 0 } })
    ht.op rfl (hcfg ▸ hc) rfl rfl (hconn ▸ hcl) hfill hretry (hcfg ▸ hle) hack
  refine ⟨_, v, (run_add hstart).trans ((run_add hburst).trans hend), hop, ?_, ?_, hvreads, ?_, ?_⟩
  · exact hres.trans ((BitVec.ofNat_toNat 32 n).trans (BitVec.setWidth_eq n))
  · rw [hvconn, hconn]
  · exact hvwrites.trans (ht.writes.trans (by rw [hcount]; exact congrArg (List.drop 1) hw))
  · rw [hvtrace, ht.trace, hcfg, hconn, hframe]
    rfl

end Sys2Proof.Machine
end

section
/-! PROOFS. RECV by its labels: the issue, the drain run to its end, and its three frames handled whole (R128 to R135). -/

namespace Sys2Proof.Machine

/-! ### The step at each label of RECV (R18, R21) -/

section
variable {s : State} (ho : s.op = .recv)
include ho

theorem step_recv (hp : s.phase.op = .recv) : step s = resume s := step_busy (by simp [ho]) (hp.trans ho.symm)

theorem step_recvDrain (hp : s.phase = .recvDrain) : step s = .next (stepRecvDrain s) := by
  rw [step_recv ho (by rw [hp]; rfl), resume, hp]

theorem step_recvRedrain {q : Seq} (hp : s.phase = .recvRedrain q) : step s = .next (stepRecvRedrain q s) := by
  rw [step_recv ho (by rw [hp]; rfl), resume, hp]

theorem step_recvReply (hp : s.phase = .recvReply) : step s = .next (stepRecvReply s) := by
  rw [step_recv ho (by rw [hp]; rfl), resume, hp]

theorem step_recvEcho (hp : s.phase = .recvEcho) : step s = .next (stepRecvEcho s) := by
  rw [step_recv ho (by rw [hp]; rfl), resume, hp]

/-- At either label of the drain a step is a turn, while there is one to make. -/
theorem step_of_drainTurn {t : State} (hd : s.AtDrain) (h : drainTurn s = some t) : step s = .next t := by
  obtain hp | ⟨q, hp⟩ := hd
  · rw [step_recvDrain ho hp, stepRecvDrain, h]
  · rw [step_recvRedrain ho hp, stepRecvRedrain, h]

end

/-! ### The drain runs to its end (R130) -/

/-- A turn finds a slot to consume, so it is not the last of what `drainLeft` allows. -/
theorem two_le_drainLeft {s t : State} (h : drainTurn s = some t) : 2 ≤ s.drainLeft := by
  have hturn : s.work.outcnt < s.work.cap ∧ (s.conn.slot s.conn.wnd).len ≠ 0 := by
    obtain ⟨hn, -⟩ | ⟨hlt, hne, -⟩ | ⟨hlt, hlong, -⟩ := drainTurn_cases s
    · cases hn.symm.trans h
    · exact ⟨hlt, hne⟩
    · exact ⟨hlt, by omega⟩
  obtain ⟨hlt, hne⟩ := hturn
  have hfull := occupied_drainFull hne
  rw [State.drainLeft, if_pos hlt]
  omega

theorem drainLoop_succ_of_none {s : State} (n : Nat) (h : drainTurn s = none) : drainLoop (n + 1) s = s := by
  simp only [drainLoop, h]

theorem drainLoop_succ_of_some {s t : State} (n : Nat) (h : drainTurn s = some t) :
    drainLoop (n + 1) s = drainLoop n t := by
  simp only [drainLoop, h]

/-- With turns enough the loop stops only where no turn is left. -/
theorem drainTurn_drainLoop {n : Nat} {s : State} (h : s.drainLeft ≤ n + 1) : drainTurn (drainLoop n s) = none := by
  induction n generalizing s with
  | zero =>
    cases ht : drainTurn s with
    | none => exact ht
    | some t =>
      have := two_le_drainLeft ht
      omega
  | succ n ih =>
    cases ht : drainTurn s with
    | none => rw [drainLoop_succ_of_none n ht]; exact ht
    | some t =>
      have := drainLeft_drainTurn ht
      rw [drainLoop_succ_of_some n ht]
      exact ih (by omega)

/-- `drain` is the whole loop: no turn is left after it. -/
theorem drainTurn_drain (s : State) : drainTurn (drain s) = none := drainTurn_drainLoop (drainLeft_le s)

theorem drain_of_none {s : State} (h : drainTurn s = none) : drain s = s := by
  unfold drain
  cases s.conn.win.length with
  | zero => rfl
  | succ n => exact drainLoop_succ_of_none n h

/-- A turn of the drain does not look at `PHASE`. -/
theorem drainTurn_goto (p : Phase) (s : State) : drainTurn (s.goto p) = (drainTurn s).map (State.goto p) := by
  simp only [drainTurn, State.goto_conn, State.goto_work, apply_ite (Option.map _), Option.map_none, Option.map_some]
  rfl

theorem drainLoop_goto (p : Phase) (n : Nat) (s : State) : drainLoop n (s.goto p) = (drainLoop n s).goto p := by
  induction n generalizing s with
  | zero => rfl
  | succ n ih =>
    have hg := drainTurn_goto p s
    cases ht : drainTurn s with
    | none =>
      rw [ht] at hg
      rw [drainLoop_succ_of_none n ht, drainLoop_succ_of_none n hg]
    | some t =>
      rw [ht] at hg
      rw [drainLoop_succ_of_some n ht, drainLoop_succ_of_some n hg, ih]

/-! ### The steps up to the end of a frame's handling (R101) -/

theorem untilPass_of_stop {s : State} (h : s.op = .idle ∨ s.phase.atPass = true) (n : Nat) :
    untilPass n s = .next s := by
  cases n with
  | zero => rfl
  | succ n => rw [untilPass, if_pos h]

theorem untilPass_of_step {s t : State} (hb : s.op ≠ .idle) (hp : s.phase.atPass = false) (h : step s = .next t)
    (n : Nat) : untilPass (n + 1) s = untilPass n t := by
  rw [untilPass, if_neg (by simp [hb, hp]), h]

theorem State.AtDrain.not_atPass {s : State} (h : s.AtDrain) : s.phase.atPass = false := by
  obtain hp | ⟨q, hp⟩ := h <;> rw [hp] <;> rfl

/-- From either label of the drain the machine makes the loop's turns one by one, whichever way its steps are counted. -/
theorem run_drainLoop {n : Nat} {s : State} (ho : s.op = .recv) (hd : s.AtDrain) :
    ∃ k ≤ n, run k s = .next (drainLoop n s) ∧ ∀ m, untilPass (k + m) s = untilPass m (drainLoop n s) := by
  induction n generalizing s with
  | zero => exact ⟨0, le_rfl, rfl, fun m => by rw [Nat.zero_add, drainLoop]⟩
  | succ n ih =>
    cases ht : drainTurn s with
    | none =>
      rw [drainLoop_succ_of_none n ht]
      exact ⟨0, Nat.zero_le _, rfl, fun m => by rw [Nat.zero_add]⟩
    | some t =>
      have hf := drainTurn_frame ht
      have hstep := step_of_drainTurn ho hd ht
      have hto : t.op = .recv := by rw [hf]; exact ho
      have htd : t.AtDrain := by rw [hf]; exact hd
      obtain ⟨k, hk, hrun, huntil⟩ := ih hto htd
      refine ⟨k + 1, Nat.succ_le_succ hk, ?_, fun m => ?_⟩
      · rw [run_of_step hstep, hrun, drainLoop_succ_of_some n ht]
      · rw [Nat.add_right_comm, untilPass_of_step (by simp [ho]) hd.not_atPass hstep, huntil,
          drainLoop_succ_of_some n ht]

/-! ### The issue (R128, R129) -/

/-- RECV issued with `CAP` = `n`, at the head of its first drain (R128). -/
def State.issueRecv (n : Word) (s : State) : State :=
  runRecv { s.issue .recv .recvEntry with args := { s.args with arg0 := n } }

theorem exec_recv_of_idle {s : State} {n : Word} (ho : s.op = .idle) (hi : s.inited = true) (hn : n.toNat < 2 ^ 31) :
    exec (.recv n) s = .next (s.issueRecv n) := by
  have hd : countInDomain n = true := decide_eq_true hn
  rw [exec, execRecv, guardLaunch_of_idle ho fun _ => hi, if_pos hd, State.issueRecv]

/-- From the head of its first drain RECV drains and makes the entry tests, within one step more than there are slots. -/
theorem run_recvEntryTests {s : State} (ho : s.op = .recv) (hp : s.phase = .recvDrain) :
    ∃ k ≤ s.conn.win.length + 1, run k s = .next (recvEntryTests (drain s)) := by
  obtain ⟨k, hk, hrun, -⟩ := run_drainLoop (n := s.conn.win.length) ho (.inl hp)
  have htests : step (drain s) = .next (recvEntryTests (drain s)) := by
    rw [step_recvDrain (s := drain s) (by simp [ho]) (by simp [hp]), stepRecvDrain, drainTurn_drain]
  refine ⟨k + 1, Nat.succ_le_succ hk, (run_add hrun).trans ?_⟩
  exact run_of_step htests 0

/-- Settles O21: the drain runs to its end, and the entry tests follow in the rule's order. -/
theorem recvIsIssued : Obligations.RecvIsIssued := by
  intro s n ho hi hn
  obtain ⟨k, hk, hrun⟩ := run_recvEntryTests (s := s.issueRecv n) rfl rfl
  have hcap : (drain (s.issueRecv n)).work.cap = n.toNat := drain_cap _
  have hclosed : (drain (s.issueRecv n)).conn.closed = s.conn.closed := drain_closed _
  refine ⟨s.issueRecv n, _, k, rfl, exec_recv_of_idle ho hi hn, rfl, drain_chan _, hclosed, hk, hrun.trans ?_⟩
  rw [recvEntryTests, hcap, hclosed]
  rfl

/-! ### The ACK reply (R135) -/

/-- Whatever the answer, the reply's write ends the handling of the frame. -/
theorem stepRecvReply_stops {s : State} :
    (stepRecvReply s).op = .idle ∨ (stepRecvReply s).phase.atPass = true := by
  unfold stepRecvReply
  obtain ⟨-, e⟩ | ⟨-, e⟩ := chanWrite_cases _ s <;> rw [e]
  · split
    · exact .inl rfl
    · exact .inr rfl
  · exact .inl rfl

theorem untilPass_recvReply {s : State} (ho : s.op = .recv) (hp : s.phase = .recvReply) (n : Nat) :
    untilPass (n + 1) s = .next (stepRecvReply s) := by
  rw [untilPass_of_step (by simp [ho]) (by rw [hp]; rfl) (step_recvReply ho hp), untilPass_of_stop stepRecvReply_stops]

/-- After a store the drain runs to its end, and the reply is made and written (R130, R134, R135). -/
theorem untilPass_recvRedrain {s : State} (ho : s.op = .recv) (q : Seq) :
    untilPass (s.conn.win.length + 2) (s.goto (.recvRedrain q)) =
      .next (stepRecvReply (txAck q .recvReply (drain s))) := by
  have hdrained : (drain s).op = .recv := (drain_op s).trans ho
  have hreply : step ((drain s).goto (.recvRedrain q)) = .next (txAck q .recvReply (drain s)) := by
    rw [step_recvRedrain (s := (drain s).goto (.recvRedrain q)) hdrained rfl, stepRecvRedrain, drainTurn_goto,
      drainTurn_drain]
    rfl
  obtain ⟨k, hk, -, huntil⟩ :=
    run_drainLoop (n := s.conn.win.length) (s := s.goto (.recvRedrain q)) ho (.inr ⟨q, rfl⟩)
  obtain ⟨m, hm⟩ : ∃ m, s.conn.win.length = k + m := Nat.exists_eq_add_of_le hk
  calc untilPass (s.conn.win.length + 2) (s.goto (.recvRedrain q))
    _ = untilPass (k + (m + 2)) (s.goto (.recvRedrain q)) := by rw [hm]; rfl
    _ = untilPass (m + 2) ((drain s).goto (.recvRedrain q)) := by rw [huntil, drainLoop_goto]; rfl
    _ = untilPass (m + 1) (txAck q .recvReply (drain s)) := untilPass_of_step (by simp [ho]) rfl hreply _
    _ = _ := untilPass_recvReply (s := txAck q .recvReply (drain s)) hdrained rfl m

/-- The state after the ACK reply naming `q` was made at `s` and written, before its answer is looked at (R95, R135). -/
def State.replied (q : Seq) (s : State) : State :=
  { s with
    txbuf := s.txbuf.writeBytes 0 (encodeFrame (flagAck s.cfg) s.conn.seq q [])
    txfill := (encodeFrame (flagAck s.cfg) s.conn.seq q []).length
    chan := (s.logWrite (encodeFrame (flagAck s.cfg) s.conn.seq q [])).chan }

theorem stepRecvReply_txAck_of_ok {q : Seq} {s : State} (h : s.writeAnswer = .ok) :
    stepRecvReply (txAck q .recvReply s) =
      if s.work.outcnt = s.work.cap then recvReturn (s.replied q) else (s.replied q).goto .recvPass := by
  rw [stepRecvReply, txAck, chanWrite_txFrame_of_ok h]
  rfl

theorem stepRecvReply_txAck_of_err {q : Seq} {s : State} (h : s.writeAnswer = .err) :
    stepRecvReply (txAck q .recvReply s) = (s.replied q).raise .tx := by
  rw [stepRecvReply, txAck, chanWrite_txFrame_of_err h]
  rfl

/-! ### A data frame handled whole (R134, R135) -/

theorem handleFrame_of_next {i : Instr} {s t : State} (h : exec i s = .next t) :
    handleFrame i s = untilPass (t.conn.win.length + 2) t := by
  rw [handleFrame, h]

/-- The slot of the frame numbered `q` (R34). -/
def State.slotOf (q : Seq) (s : State) : Nat := slotIndex s.cfg.w s.conn.wnd (seqOffset q s.conn.ack)

/-- When a data frame is stored: inside the window, its slot empty, with a payload (R134). -/
abbrev State.Accepts (q : Seq) (pl : List Byte) (s : State) : Prop :=
  seqOffset q s.conn.ack < s.cfg.w ∧ (s.conn.slot (s.slotOf q)).len = 0 ∧ pl ≠ []

/-- The state after a data frame was stored, before the drain (R134). -/
def State.stored (q : Seq) (pl : List Byte) (s : State) : State :=
  { s.setTicks 0 with
    conn :=
      s.conn.setSlot (s.slotOf q) { len := pl.length, data := (s.conn.slot (s.slotOf q)).data.writeBytes 0 pl } }

/-- What a data frame does before it is acknowledged: the store and the drain, or nothing but `TICKS` (R134). -/
def State.afterData (q : Seq) (pl : List Byte) (s : State) : State :=
  if s.Accepts q pl then drain (s.stored q pl) else s.setTicks 0

theorem recvDataArm_eq (q : Seq) (pl : List Byte) (s : State) :
    recvDataArm q pl s =
      if s.Accepts q pl then (s.stored q pl).goto (.recvRedrain q) else txAck q .recvReply (s.setTicks 0) := by
  simp only [State.Accepts, ← List.length_pos_iff]
  rfl

section
variable {s : State} {q a : Seq} {pl : List Byte} (ho : s.op = .recv) (hp : s.phase = .recvPass)
  (hpl : pl.length ≤ s.cfg.maxp)

@[simp] theorem afterData_cfg : (s.afterData q pl).cfg = s.cfg := by
  unfold State.afterData; split <;> simp [State.stored]

@[simp] theorem afterData_phase : (s.afterData q pl).phase = s.phase := by
  unfold State.afterData; split <;> simp [State.stored]

@[simp] theorem afterData_chan : (s.afterData q pl).chan = s.chan := by
  unfold State.afterData; split <;> simp [State.stored]

@[simp] theorem afterData_writeAnswer : (s.afterData q pl).writeAnswer = s.writeAnswer := by
  simp [State.writeAnswer]

include ho hp hpl

theorem exec_data_recv : exec (.data q a pl) s = .next (recvDataArm q pl s) := dataMeaning_recv ho hp q hpl

/-- A data frame is stored and drained if it is accepted, and in every case its reply is written. -/
theorem handleFrame_data :
    handleFrame (.data q a pl) s = .next (stepRecvReply (txAck q .recvReply (s.afterData q pl))) := by
  rw [handleFrame_of_next (exec_data_recv ho hp hpl), recvDataArm_eq, State.afterData]
  by_cases hacc : s.Accepts q pl
  · rw [if_pos hacc, if_pos hacc]
    exact untilPass_recvRedrain (s := s.stored q pl) ho q
  · rw [if_neg hacc, if_neg hacc]
    exact untilPass_recvReply (s := txAck q .recvReply (s.setTicks 0)) ho rfl _

theorem handleFrame_data_of_ok (hw : s.writeAnswer = .ok) :
    handleFrame (.data q a pl) s = .next
      (if (s.afterData q pl).work.outcnt = (s.afterData q pl).work.cap then recvReturn ((s.afterData q pl).replied q)
      else (s.afterData q pl).replied q) := by
  have hstay : ((s.afterData q pl).replied q).goto .recvPass = (s.afterData q pl).replied q := by
    have : ((s.afterData q pl).replied q).phase = .recvPass := afterData_phase.trans hp
    rw [State.goto, ← this]
  rw [handleFrame_data ho hp hpl, stepRecvReply_txAck_of_ok (by simpa using hw), hstay]

theorem handleFrame_data_of_err (hw : s.writeAnswer = .err) :
    handleFrame (.data q a pl) s = .next (((s.afterData q pl).replied q).raise .tx) := by
  rw [handleFrame_data ho hp hpl, stepRecvReply_txAck_of_err (by simpa using hw)]

end

theorem flagAck_eq_ofNat (c : Config) : flagAck c = BitVec.ofNat 8 (4 * c.tag.toNat + 1) := mkFlag_eq_ofNat c.tag 1

/-- The reply's frame and its place in the channel are those of the state before the store: neither the store nor the drain
moves `SEQ`, `TXBUF` or the channel. -/
theorem replied_afterData (q : Seq) (pl : List Byte) (s : State) :
    (s.afterData q pl).replied q =
      { s.afterData q pl with
        txbuf := s.txbuf.writeBytes 0 (encodeFrame (flagAck s.cfg) s.conn.seq q [])
        txfill := (encodeFrame (flagAck s.cfg) s.conn.seq q []).length
        chan := (s.logWrite (encodeFrame (flagAck s.cfg) s.conn.seq q [])).chan } := by
  unfold State.afterData
  split
  · rw [drain_frame]; rfl
  · rfl

/-- Settles O35: the frame's handling is the store, the drain and the reply, and the answer decides how it ends. -/
theorem dataFrameInRecv : Obligations.DataFrameInRecv := by
  intro s q a pl ho hp hpl
  refine ⟨_, _, s.setTicks 0, s.stored q pl, s.afterData q pl, (s.afterData q pl).replied q, _, rfl, rfl, rfl, rfl, rfl,
    ?_, rfl, ?_, fun hw => handleFrame_data_of_ok ho hp hpl hw, fun hw => handleFrame_data_of_err ho hp hpl hw⟩
  · rw [exec_data_recv ho hp hpl, recvDataArm_eq, ← flagAck_eq_ofNat]
    rfl
  · rw [replied_afterData, flagAck_eq_ofNat]

/-! ### ACK and FIN frames (R132, R133) -/

/-- Settles O36: an ACK frame clears `TICKS`, and the FIN's echo is made of the own counters. -/
theorem ackAndFinFramesInRecv : Obligations.AckAndFinFramesInRecv := by
  intro s q a pl ho hp
  have hecho := step_recvEcho (s := recvFinArm s) ho rfl
  refine ⟨ackMeaning_recv ho hp a, encodeFrame (flagFin s.cfg) s.conn.seq s.conn.ack [], recvFinArm s, _, ?_, rfl, rfl,
    finMeaning_recv ho hp q a, fun h => ?_, fun h => ?_⟩
  · rw [flagFin_eq_ofNat]
  · rw [hecho, stepRecvEcho, recvFinArm, txFinOwn, chanWrite_txFrame_of_ok (s := s.setTicks 0) h]
    rfl
  · rw [hecho, stepRecvEcho, recvFinArm, txFinOwn, chanWrite_txFrame_of_err (s := s.setTicks 0) h]
    rfl

end Sys2Proof.Machine
end

section
/-! PROOFS. What the drain delivers: the bytes it moves to `OUT`, and the slots it consumes (R130). -/

namespace Sys2Proof.Machine

/-! ### The slots ahead of the head (R34) -/

theorem Slot.length_bytes (v : Slot) : v.bytes.length = v.len := Memory.length_readBytes ..

theorem Slot.bytes_eq_nil_iff (v : Slot) : v.bytes = [] ↔ v.len = 0 := by
  rw [← List.length_eq_zero_iff, Slot.length_bytes]

theorem slot_setSlot_ne {c : Conn} {i j : Nat} (h : i ≠ j) (v : Slot) : (c.setSlot i v).slot j = c.slot j := by
  simp [Conn.slot, Conn.setSlot, List.getD_eq_getElem?_getD, List.getElem?_set_ne h]

/-- Two places less than a window apart are two slots. -/
theorem add_mod_ne {w i j : Nat} (a : Nat) (hi : i < w) (hj : j < w) (h : i ≠ j) : (a + i) % w ≠ (a + j) % w := by
  intro e
  have hmod : i % w = j % w := Nat.ModEq.add_left_cancel' a e
  exact h (by rwa [Nat.mod_eq_of_lt hi, Nat.mod_eq_of_lt hj] at hmod)

/-- The place `j` ahead of the next one is the place `j + 1` ahead. -/
theorem succ_mod_add_mod (w i j : Nat) : ((i + 1) % w + j) % w = (i + (j + 1)) % w := by
  rw [Nat.mod_add_mod, Nat.add_assoc, Nat.add_comm 1 j]

/-! ### What the window holds in order -/

section
variable {w i n : Nat} {c c' : Conn}

theorem pendingFrom_of_empty (h : (c.slot i).len = 0) : pendingFrom w c n i = [] := by
  cases n with
  | zero => rfl
  | succ n => rw [pendingFrom, if_pos h]

theorem pendingFrom_of_occupied (h : (c.slot i).len ≠ 0) :
    pendingFrom w c (n + 1) i = (c.slot i).bytes ++ pendingFrom w c n ((i + 1) % w) := by
  rw [pendingFrom, if_neg h]

theorem pendingFrom_congr (hi : i < w) (h : ∀ j < n, c.slot ((i + j) % w) = c'.slot ((i + j) % w)) :
    pendingFrom w c n i = pendingFrom w c' n i := by
  induction n generalizing i with
  | zero => rfl
  | succ n ih =>
    have hhead : c.slot i = c'.slot i := by simpa [Nat.mod_eq_of_lt hi] using h 0 (Nat.succ_pos n)
    have hrest := ih (i := (i + 1) % w) (Nat.mod_lt _ (by omega)) fun j hj => by
      rw [succ_mod_add_mod]
      exact h (j + 1) (by omega)
    rw [pendingFrom, pendingFrom, hhead, hrest]

/-- A last slot that is empty adds nothing. -/
theorem pendingFrom_succ_of_last_empty (hi : i < w) (h : (c.slot ((i + n) % w)).len = 0) :
    pendingFrom w c (n + 1) i = pendingFrom w c n i := by
  induction n generalizing i with
  | zero => exact pendingFrom_of_empty (by simpa [Nat.mod_eq_of_lt hi] using h)
  | succ n ih =>
    have hrest := ih (i := (i + 1) % w) (Nat.mod_lt _ (by omega)) (by rwa [succ_mod_add_mod])
    rw [pendingFrom, hrest, pendingFrom]

end

section
variable {s t u : State}

theorem pending_of_head_empty (h : (s.conn.slot s.conn.wnd).len = 0) : s.pending = [] := pendingFrom_of_empty h

/-- With an occupied head the window holds the head's bytes, then those of the other slots. -/
theorem pending_of_head_occupied (h : Window s) (hne : (s.conn.slot s.conn.wnd).len ≠ 0) :
    s.pending = (s.conn.slot s.conn.wnd).bytes ++
      pendingFrom s.cfg.w s.conn (s.cfg.w - 1) ((s.conn.wnd + 1) % s.cfg.w) := by
  obtain ⟨hl, -, -, -⟩ := h
  obtain ⟨n, hn⟩ := Nat.exists_eq_succ_of_ne_zero (slots_pos hl).ne'
  rw [State.pending, hn, Nat.succ_sub_one, ← pendingFrom_of_occupied hne]

/-- No slot but the head is the place the others begin at or one after it. -/
theorem head_ne_of_lt {w a j : Nat} (ha : a < w) (hj : j < w - 1) : a ≠ ((a + 1) % w + j) % w := by
  have h := add_mod_ne (w := w) (i := 0) (j := j + 1) a (by omega) (by omega) (by omega)
  rwa [Nat.add_zero, Nat.mod_eq_of_lt ha, ← succ_mod_add_mod] at h

/-- Consuming the head whole leaves the other slots' bytes to come. -/
theorem pending_drainFull (h : Window s) (hne : (s.conn.slot s.conn.wnd).len ≠ 0) :
    s.pending = (s.conn.slot s.conn.wnd).bytes ++ (drainFull s).pending := by
  obtain ⟨hl, -, hwnd, -⟩ := id h
  have hw := slots_pos hl
  have hnext : (s.conn.wnd + 1) % s.cfg.w < s.cfg.w := Nat.mod_lt _ hw
  have hlast : ((s.conn.wnd + 1) % s.cfg.w + (s.cfg.w - 1)) % s.cfg.w = s.conn.wnd := by
    rw [succ_mod_add_mod, Nat.sub_add_cancel hw, Nat.add_mod_right, Nat.mod_eq_of_lt hwnd]
  have hempty : ((drainFull s).conn.slot s.conn.wnd).len = 0 :=
    congrArg Slot.len (slot_setSlot_same (slot_lt_of_len hne) _)
  have hrest : (drainFull s).pending =
      pendingFrom s.cfg.w s.conn (s.cfg.w - 1) ((s.conn.wnd + 1) % s.cfg.w) := by
    calc (drainFull s).pending
      _ = pendingFrom s.cfg.w (drainFull s).conn (s.cfg.w - 1 + 1) ((s.conn.wnd + 1) % s.cfg.w) := by
        rw [Nat.sub_add_cancel hw]; rfl
      _ = pendingFrom s.cfg.w (drainFull s).conn (s.cfg.w - 1) ((s.conn.wnd + 1) % s.cfg.w) :=
        pendingFrom_succ_of_last_empty hnext (by rwa [hlast])
      _ = _ := pendingFrom_congr hnext fun j hj => slot_setSlot_ne (head_ne_of_lt hwnd hj) _
  rw [pending_of_head_occupied h hne, hrest]

/-- The rest of a slot of which `room` bytes were consumed, shifted down (R130). -/
def Slot.rest (room : Nat) (v : Slot) : Slot :=
  { len := v.len - room, data := v.data.writeBytes 0 (v.data.readBytes room (v.len - room)) }

theorem Slot.bytes_rest {room : Nat} {v : Slot} (h : room ≤ v.len) :
    v.bytes = v.data.readBytes 0 room ++ (v.rest room).bytes := by
  have hrest : (v.rest room).bytes = v.data.readBytes room (v.len - room) := by
    have hread := Memory.readBytes_writeBytes_same v.data 0 (v.data.readBytes room (v.len - room))
    rwa [Memory.length_readBytes] at hread
  have hsplit := Memory.readBytes_add v.data 0 room (v.len - room)
  rw [Nat.add_sub_cancel' h, Nat.zero_add] at hsplit
  rw [hrest, Slot.bytes, hsplit]

theorem slot_head_drainPart {room : Nat} (h : room < (s.conn.slot s.conn.wnd).len) :
    (drainPart room s).conn.slot s.conn.wnd = (s.conn.slot s.conn.wnd).rest room :=
  slot_setSlot_same (slot_lt_of_len (by omega)) _

/-- Consuming a part of the head leaves its rest and the other slots' bytes to come. -/
theorem pending_drainPart {room : Nat} (h : Window s) (hlt : room < (s.conn.slot s.conn.wnd).len) :
    s.pending = (s.conn.slot s.conn.wnd).data.readBytes 0 room ++ (drainPart room s).pending := by
  obtain ⟨hl, -, hwnd, -⟩ := id h
  have hhead := slot_head_drainPart hlt
  have hwindow : Window (drainPart room s) :=
    window_setSlot h s.conn.wnd ((Nat.sub_le _ _).trans (slot_len_le h _)) (hn := hwnd)
  have hpart : (drainPart room s).pending = ((s.conn.slot s.conn.wnd).rest room).bytes ++
      pendingFrom s.cfg.w s.conn (s.cfg.w - 1) ((s.conn.wnd + 1) % s.cfg.w) := by
    have hne : ((drainPart room s).conn.slot s.conn.wnd).len ≠ 0 := by
      rw [hhead]
      exact (Nat.sub_pos_of_lt hlt).ne'
    rw [pending_of_head_occupied hwindow hne]
    refine congrArg₂ _ (congrArg Slot.bytes hhead) ?_
    exact pendingFrom_congr (Nat.mod_lt _ (slots_pos hl)) fun j hj => slot_setSlot_ne (head_ne_of_lt hwnd hj) _
  rw [pending_of_head_occupied h (by omega), hpart, Slot.bytes_rest hlt.le, List.append_assoc]

/-! ### The bytes delivered -/

/-- A turn of the drain puts the front of what the window holds behind what `OUT` holds (R130). -/
theorem drainTurn_output (h : Window s) (ht : drainTurn s = some t) :
    ∃ bs, t.out = s.out.writeBytes s.work.outcnt bs ∧ t.work.outcnt = s.work.outcnt + bs.length ∧
      s.pending = bs ++ t.pending := by
  obtain ⟨hn, -⟩ | ⟨-, hne, -, hs⟩ | ⟨hlt, hlong, hs⟩ := drainTurn_cases s
  · cases hn.symm.trans ht
  · cases hs.symm.trans ht
    exact ⟨_, rfl, by rw [Slot.length_bytes]; rfl, pending_drainFull h hne⟩
  · cases hs.symm.trans ht
    refine ⟨_, rfl, ?_, pending_drainPart h hlong⟩
    rw [Memory.length_readBytes, Nat.add_sub_cancel' hlt.le]
    rfl

/-- From `s` to `t` bytes have moved from the front of the window to the end of the output, and no other byte of `OUT` has
changed (R130). -/
structure Delivers (s t : State) : Prop where
  stream : t.out.readBytes s.work.outcnt (t.work.outcnt - s.work.outcnt) ++ t.pending = s.pending
  outcnt_le : s.work.outcnt ≤ t.work.outcnt
  outside : ∀ a, a < s.work.outcnt ∨ t.work.outcnt ≤ a → t.out.read a = s.out.read a

theorem Delivers.refl (s : State) : Delivers s s where
  stream := by rw [Nat.sub_self]; rfl
  outcnt_le := le_rfl
  outside _ _ := rfl

theorem Delivers.trans (h : Delivers s t) (h' : Delivers t u) : Delivers s u where
  stream := by
    obtain ⟨hst, hle, -⟩ := h
    obtain ⟨htu, hle', hout⟩ := h'
    have hkept : u.out.readBytes s.work.outcnt (t.work.outcnt - s.work.outcnt) =
        t.out.readBytes s.work.outcnt (t.work.outcnt - s.work.outcnt) :=
      Memory.readBytes_congr fun i hi => hout _ (.inl (by omega))
    have hsum : u.work.outcnt - s.work.outcnt =
        (t.work.outcnt - s.work.outcnt) + (u.work.outcnt - t.work.outcnt) := by omega
    rw [hsum, Memory.readBytes_add, Nat.add_sub_cancel' hle, hkept, List.append_assoc, htu, hst]
  outcnt_le := h.outcnt_le.trans h'.outcnt_le
  outside a ha := by
    have hle := h.outcnt_le
    have hle' := h'.outcnt_le
    exact (h'.outside a (by omega)).trans (h.outside a (by omega))

theorem drainTurn_delivers (h : Window s) (ht : drainTurn s = some t) : Delivers s t := by
  obtain ⟨bs, hout, hcnt, hp⟩ := drainTurn_output h ht
  refine ⟨?_, by omega, fun a ha => ?_⟩
  · rw [hout, hcnt, Nat.add_sub_cancel_left, Memory.readBytes_writeBytes_same, hp]
  · rw [hout]
    exact Memory.read_writeBytes_outside (by omega)

/-- The window's shape is kept, and what is delivered is the front of what it held. -/
theorem drain_delivers (h : Window s) : Window (drain s) ∧ Delivers s (drain s) :=
  drain_induct (P := fun t => Window t ∧ Delivers s t)
    (fun _ _ ⟨hw, hd⟩ ht => ⟨window_drainTurn hw ht, hd.trans (drainTurn_delivers hw ht)⟩) s
    ⟨h, Delivers.refl s⟩

theorem drain_outcnt_le (h : s.work.outcnt ≤ s.work.cap) : (drain s).work.outcnt ≤ s.work.cap :=
  (drain_cap s) ▸ drain_induct (P := fun t => t.work.outcnt ≤ t.work.cap)
    (fun _ _ _ ht => outcnt_le_cap_drainTurn ht) s h

/-- The drain stops only at `CAP` or at a gap. -/
theorem drain_stops (h : s.work.outcnt ≤ s.work.cap) :
    (drain s).work.outcnt = s.work.cap ∨ (drain s).pending = [] := by
  obtain ⟨-, hstop⟩ | ⟨-, -, -, hs⟩ | ⟨-, -, hs⟩ := drainTurn_cases (drain s)
  · rw [drain_cap] at hstop
    exact hstop.imp (Nat.le_antisymm (drain_outcnt_le h)) pending_of_head_empty
  · cases (drainTurn_drain s).symm.trans hs
  · cases (drainTurn_drain s).symm.trans hs

/-! ### The slots consumed -/

/-- From `s` to `t` exactly `k` slots have been consumed whole, `ACK` and `WND` have moved `k` times, the slots behind are
as they were, and so is the new head, unless the output is full and a part of it was consumed (R31 d, R130). -/
structure Consumed (s t : State) (k : Nat) : Prop where
  le : k ≤ s.cfg.w
  ack : t.conn.ack = s.conn.ack + BitVec.ofNat 16 k
  wnd : t.conn.wnd = (s.conn.wnd + k) % s.cfg.w
  emptied : ∀ j < k, (s.conn.slot ((s.conn.wnd + j) % s.cfg.w)).len ≠ 0 ∧
    (t.conn.slot ((s.conn.wnd + j) % s.cfg.w)).len = 0
  kept : ∀ j < s.cfg.w, k < j →
    t.conn.slot ((s.conn.wnd + j) % s.cfg.w) = s.conn.slot ((s.conn.wnd + j) % s.cfg.w)
  head : k < s.cfg.w → t.conn.slot t.conn.wnd = s.conn.slot t.conn.wnd ∨
    (t.work.outcnt = t.work.cap ∧ 0 < (t.conn.slot t.conn.wnd).len ∧
      (t.conn.slot t.conn.wnd).len < (s.conn.slot t.conn.wnd).len)

theorem Consumed.nothing (h : Window s) : Consumed s s 0 := by
  obtain ⟨-, -, hwnd, -⟩ := h
  exact ⟨Nat.zero_le _, (BitVec.add_zero _).symm, (Nat.mod_eq_of_lt hwnd).symm, nofun, fun _ _ _ => rfl,
    fun _ => .inl rfl⟩

section
variable {k : Nat} (h : Consumed s t k) (hw : Window s)
include h hw

/-- Once round the window there is nothing left to consume. -/
theorem Consumed.lt_of_head_occupied (hne : (t.conn.slot t.conn.wnd).len ≠ 0) : k < s.cfg.w := by
  obtain ⟨hl, -, -, -⟩ := hw
  refine Nat.lt_of_le_of_ne h.le fun e => hne ?_
  obtain ⟨-, hempty⟩ := h.emptied 0 (e ▸ slots_pos hl)
  rwa [h.wnd, e, Nat.add_mod_right]

omit hw in
/-- While there is room in the output the head has not been touched. -/
theorem Consumed.head_untouched (hlt : t.work.outcnt < t.work.cap) (hk : k < s.cfg.w) :
    t.conn.slot t.conn.wnd = s.conn.slot t.conn.wnd :=
  (h.head hk).resolve_right fun ⟨hfull, _⟩ => hlt.ne hfull

theorem Consumed.drainFull (hcfg : t.cfg = s.cfg) (hlt : t.work.outcnt < t.work.cap)
    (hne : (t.conn.slot t.conn.wnd).len ≠ 0) : Consumed s (drainFull t) (k + 1) := by
  have hk := h.lt_of_head_occupied hw hne
  have hhead := h.head_untouched hlt hk
  have hother : ∀ j < s.cfg.w, k ≠ j → (Machine.drainFull t).conn.slot ((s.conn.wnd + j) % s.cfg.w) =
      t.conn.slot ((s.conn.wnd + j) % s.cfg.w) := fun j hj hkj =>
    slot_setSlot_ne (by rw [h.wnd]; exact add_mod_ne _ hk hj hkj) _
  have hwnd : (Machine.drainFull t).conn.wnd = (s.conn.wnd + (k + 1)) % s.cfg.w := by
    change (t.conn.wnd + 1) % t.cfg.w = _
    rw [h.wnd, hcfg, Nat.mod_add_mod, Nat.add_assoc]
  refine ⟨hk, ?_, hwnd, fun j hj => ?_, fun j hj hkj => ?_, fun hk1 => .inl ?_⟩
  · change t.conn.ack + 1 = _
    rw [h.ack, BitVec.ofNat_add, BitVec.add_assoc]
    rfl
  · obtain hj | rfl := Nat.lt_succ_iff_lt_or_eq.mp hj
    · rw [hother j (hj.trans hk) hj.ne']
      exact h.emptied j hj
    · rw [← h.wnd, ← hhead]
      exact ⟨hne, congrArg Slot.len (slot_setSlot_same (slot_lt_of_len hne) _)⟩
  · rw [hother j hj (by omega), h.kept j hj (by omega)]
  · rw [hwnd, hother _ hk1 (by omega), h.kept _ hk1 (by omega)]

theorem Consumed.drainPart {room : Nat} (hlt : t.work.outcnt < t.work.cap) (hpos : 0 < room)
    (hlong : room < (t.conn.slot t.conn.wnd).len) : Consumed s (drainPart room t) k := by
  have hk := h.lt_of_head_occupied hw (by omega)
  have hhead := h.head_untouched hlt hk
  have hother : ∀ j < s.cfg.w, k ≠ j → (Machine.drainPart room t).conn.slot ((s.conn.wnd + j) % s.cfg.w) =
      t.conn.slot ((s.conn.wnd + j) % s.cfg.w) := fun j hj hkj =>
    slot_setSlot_ne (by rw [h.wnd]; exact add_mod_ne _ hk hj hkj) _
  refine ⟨h.le, h.ack, h.wnd, fun j hj => ?_, fun j hj hkj => ?_, fun _ => .inr ⟨rfl, ?_⟩⟩
  · rw [hother j (hj.trans hk) hj.ne']
    exact h.emptied j hj
  · rw [hother j hj hkj.ne, h.kept j hj hkj]
  · have hrest := congrArg Slot.len (slot_head_drainPart hlong)
    change 0 < ((Machine.drainPart room t).conn.slot t.conn.wnd).len ∧
      ((Machine.drainPart room t).conn.slot t.conn.wnd).len < (s.conn.slot t.conn.wnd).len
    rw [← hhead, hrest]
    exact ⟨Nat.sub_pos_of_lt hlong, Nat.sub_lt (by omega) hpos⟩

theorem Consumed.drainTurn (hcfg : t.cfg = s.cfg) (ht : drainTurn t = some u) : ∃ k, Consumed s u k := by
  obtain ⟨hn, -⟩ | ⟨hlt, hne, -, hs⟩ | ⟨hlt, hlong, hs⟩ := drainTurn_cases t
  · cases hn.symm.trans ht
  · cases hs.symm.trans ht
    exact ⟨k + 1, h.drainFull hw hcfg hlt hne⟩
  · cases hs.symm.trans ht
    exact ⟨k, h.drainPart hw hlt (Nat.sub_pos_of_lt hlt) hlong⟩

end

theorem drain_consumed (h : Window s) : ∃ k, Consumed s (drain s) k := by
  have := drain_induct (P := fun t => t.cfg = s.cfg ∧ ∃ k, Consumed s t k)
    (fun t u ⟨hcfg, k, hk⟩ ht => ⟨by rw [drainTurn_frame ht]; exact hcfg, hk.drainTurn h hcfg ht⟩) s
    ⟨rfl, 0, Consumed.nothing h⟩
  exact this.2

end

/-- Settles O34: the bytes by `Delivers`, the slots by `Consumed`, each kept by every turn. -/
theorem drainDeliversInOrder : Obligations.DrainDeliversInOrder := by
  rintro s t hw hle rfl
  obtain ⟨-, hd⟩ := drain_delivers hw
  obtain ⟨k, hk⟩ := drain_consumed hw
  refine ⟨hd.stream, hd.outcnt_le, drain_outcnt_le hle, drain_stops hle, hd.outside,
    ⟨k, hk.le, hk.ack, hk.wnd, hk.emptied, hk.kept, ?_⟩, drain_frame s⟩
  rw [← drain_cap s]
  exact hk.head

end Sys2Proof.Machine
end

section
/-! PROOFS. A data frame sent twice, and the two ends of the window (R134). -/

namespace Sys2Proof.Machine

/-! ### Offsets and slots (R19, R34) -/

theorem seqOffset_add_self (a : Seq) {n : Nat} (h : n < 65536) : seqOffset (a + BitVec.ofNat 16 n) a = n := by
  simp only [seqOffset, BitVec.toNat_sub, BitVec.toNat_add, BitVec.toNat_ofNat]
  have := a.isLt
  omega

/-- A base moved up to a value or less leaves the rest of the offset. -/
theorem seqOffset_add_of_le {q a : Seq} {k : Nat} (h : k ≤ seqOffset q a) :
    seqOffset q (a + BitVec.ofNat 16 k) = seqOffset q a - k := by
  simp only [seqOffset, BitVec.toNat_sub, BitVec.toNat_add, BitVec.toNat_ofNat] at h ⊢
  have := a.isLt
  have := q.isLt
  omega

/-- A base moved past a value leaves it almost a full turn ahead. -/
theorem seqOffset_add_of_lt {q a : Seq} {k : Nat} (h : seqOffset q a < k) (hk : k ≤ 65536) :
    seqOffset q (a + BitVec.ofNat 16 k) = 65536 + seqOffset q a - k := by
  simp only [seqOffset, BitVec.toNat_sub, BitVec.toNat_add, BitVec.toNat_ofNat] at h ⊢
  have := a.isLt
  have := q.isLt
  omega

theorem slotOf_eq (q : Seq) (s : State) :
    s.slotOf q = (s.conn.wnd + seqOffset q s.conn.ack) % s.cfg.w := by
  rw [State.slotOf, slotIndex, Nat.add_comm]

theorem width_le_32 {c : Config} (h : c.Legal) : c.w ≤ 32 := by
  obtain ⟨hw, -⟩ := h
  simp only [List.mem_cons, List.not_mem_nil, or_false] at hw
  omega

section
variable {s : State} {q : Seq} {pl : List Byte}

theorem slotOf_lt (h : Window s) (q : Seq) : s.slotOf q < s.conn.win.length := by
  obtain ⟨hl, hlen, -, -⟩ := h
  rw [hlen]
  exact Nat.mod_lt _ (slots_pos hl)

theorem window_stored (h : Window s) (hpl : pl.length ≤ s.cfg.maxp) : Window (s.stored q pl) := by
  obtain ⟨-, -, hwnd, -⟩ := id h
  exact window_setSlot h (s.slotOf q) hpl (hn := hwnd)

theorem slot_stored_same (h : Window s) : (s.stored q pl).conn.slot (s.slotOf q) =
    { len := pl.length, data := (s.conn.slot (s.slotOf q)).data.writeBytes 0 pl } :=
  slot_setSlot_same (slotOf_lt h q) _

theorem bytes_slot_stored_same (h : Window s) : ((s.stored q pl).conn.slot (s.slotOf q)).bytes = pl := by
  rw [slot_stored_same h]
  exact Memory.readBytes_writeBytes_same _ _ _

theorem slot_stored_ne {i : Nat} (h : s.slotOf q ≠ i) : (s.stored q pl).conn.slot i = s.conn.slot i :=
  slot_setSlot_ne h _

/-! ### A frame's handling, where it is stored and where it is not -/

theorem afterData_of_accepts (h : s.Accepts q pl) : s.afterData q pl = drain (s.stored q pl) := if_pos h

theorem afterData_of_not_accepts (h : ¬ s.Accepts q pl) : s.afterData q pl = s.setTicks 0 := if_neg h

theorem afterData_ticks : (s.afterData q pl).work.ticks = 0 := by
  by_cases h : s.Accepts q pl
  · rw [afterData_of_accepts h, drain_frame]; rfl
  · rw [afterData_of_not_accepts h]; rfl

section
variable {t : State} {a : Seq} (ho : s.op = .recv) (hp : s.phase = .recvPass) (hpl : pl.length ≤ s.cfg.maxp)
  (h : handleFrame (.data q a pl) s = .next t)
include ho hp hpl h

/-- Where RECV goes on after a data frame, the reply was written and nothing else has changed (R135). -/
theorem eq_replied_of_stays (hop : t.op = .recv) : t = (s.afterData q pl).replied q := by
  cases hw : s.writeAnswer with
  | ok =>
    rw [handleFrame_data_of_ok ho hp hpl hw] at h
    cases h
    by_cases hfull : (s.afterData q pl).work.outcnt = (s.afterData q pl).work.cap
    · rw [if_pos hfull] at hop
      cases hop
    · rw [if_neg hfull]
  | err =>
    rw [handleFrame_data_of_err ho hp hpl hw] at h
    cases h
    cases hop

/-- A frame that is not stored changes nothing of the window, `OUT` or the counters but `TICKS`, and is acknowledged. -/
theorem unstored_is_acknowledged (hn : ¬ s.Accepts q pl) :
    t.conn = s.conn ∧ t.out = s.out ∧ t.work = (s.setTicks 0).work ∧
      t.chan = (s.logWrite (encodeFrame (flagAck s.cfg) s.conn.seq q [])).chan := by
  cases hw : s.writeAnswer with
  | ok =>
    rw [handleFrame_data_of_ok ho hp hpl hw, afterData_of_not_accepts hn] at h
    cases h
    split <;> exact ⟨rfl, rfl, rfl, rfl⟩
  | err =>
    rw [handleFrame_data_of_err ho hp hpl hw, afterData_of_not_accepts hn] at h
    cases h
    exact ⟨rfl, rfl, rfl, rfl⟩

end

/-! ### A duplicate -/

section
variable {k : Nat} (h : Window s) (hk : Consumed (s.stored q pl) (drain (s.stored q pl)) k)
include h hk

omit h in
/-- Where the drain has not passed a frame's number, its slot is the one it was. -/
theorem slotOf_drain_stored (hle : k ≤ seqOffset q s.conn.ack) : (drain (s.stored q pl)).slotOf q = s.slotOf q := by
  have hack : (drain (s.stored q pl)).conn.ack = s.conn.ack + BitVec.ofNat 16 k := hk.ack
  rw [slotOf_eq, slotOf_eq, hack, hk.wnd, drain_cfg, seqOffset_add_of_le hle]
  change ((s.conn.wnd + k) % s.cfg.w + _) % s.cfg.w = _
  rw [Nat.mod_add_mod, Nat.add_assoc, Nat.add_sub_cancel' hle]

/-- Where the drain has not passed it, a stored frame is still there, or the rest of it (R130). -/
theorem slot_drain_stored_occupied (ha : s.Accepts q pl) (hle : k ≤ seqOffset q s.conn.ack) :
    ((drain (s.stored q pl)).conn.slot (s.slotOf q)).len ≠ 0 := by
  obtain ⟨hd, -, hne⟩ := ha
  have hstored : ((s.stored q pl).conn.slot (s.slotOf q)).len ≠ 0 := by
    rw [slot_stored_same h]
    exact (List.length_pos_iff.mpr hne).ne'
  obtain rfl | hgt := hle.eq_or_lt
  · have hwnd : (drain (s.stored q pl)).conn.wnd = s.slotOf q := hk.wnd.trans (slotOf_eq q s).symm
    have hhead := hk.head hd
    rw [hwnd] at hhead
    obtain hsame | ⟨-, hleft, -⟩ := hhead
    · rwa [hsame]
    · exact hleft.ne'
  · have hkept := hk.kept _ hd hgt
    rw [slotOf_eq] at hstored ⊢
    exact fun hempty => hstored ((congrArg Slot.len hkept).symm.trans hempty)

end

/-- Once stored and drained, a frame's number is behind the window or its slot is still occupied. -/
theorem not_accepts_drain_stored (h : Window s) (hpl : pl.length ≤ s.cfg.maxp) (ha : s.Accepts q pl)
    (pl' : List Byte) : ¬ (drain (s.stored q pl)).Accepts q pl' := by
  rintro ⟨hoff, hempty, -⟩
  have hw32 := width_le_32 h.1
  obtain ⟨k, hk⟩ := drain_consumed (window_stored (q := q) h hpl)
  have hkw : k ≤ s.cfg.w := hk.le
  obtain hlt | hle := Nat.lt_or_ge (seqOffset q s.conn.ack) k
  · have hack : (drain (s.stored q pl)).conn.ack = s.conn.ack + BitVec.ofNat 16 k := hk.ack
    have hbehind := seqOffset_add_of_lt hlt (by omega)
    rw [drain_cfg, hack, hbehind] at hoff
    change _ < s.cfg.w at hoff
    omega
  · rw [slotOf_drain_stored hk hle] at hempty
    exact slot_drain_stored_occupied h hk ha hle hempty

theorem not_accepts_afterData (h : Window s) (hpl : pl.length ≤ s.cfg.maxp) (hne : pl ≠ []) (pl' : List Byte) :
    ¬ (s.afterData q pl).Accepts q pl' := by
  by_cases ha : s.Accepts q pl
  · rw [afterData_of_accepts ha]
    exact not_accepts_drain_stored h hpl ha pl'
  · rw [afterData_of_not_accepts ha]
    exact fun ⟨hd, hempty, _⟩ => ha ⟨hd, hempty, hne⟩

end

/-- Settles O37: after the first frame its number is not accepted again. -/
theorem duplicateDataIsDeliveredOnce : Obligations.DuplicateDataIsDeliveredOnce := by
  intro s t u q a a' pl pl' hw ho hp _ hne hpl hpl' ht htop hu
  obtain rfl := eq_replied_of_stays ho hp hpl ht htop
  have hphase : ((s.afterData q pl).replied q).phase = .recvPass := afterData_phase.trans hp
  have hcfg : ((s.afterData q pl).replied q).cfg = s.cfg := afterData_cfg
  have hn : ¬ ((s.afterData q pl).replied q).Accepts q pl' := not_accepts_afterData hw hpl hne pl'
  obtain ⟨hconn, hout, hwork, hchan⟩ := unstored_is_acknowledged htop hphase (hcfg ▸ hpl') hu hn
  refine ⟨hconn, hout, hwork.trans ?_, hchan⟩
  have hticks : ((s.afterData q pl).replied q).work.ticks = 0 := afterData_ticks
  rw [State.setTicks_work, ← hticks]

/-! ### The ends of the window -/

theorem drainTurn_of_head_empty {s : State} (h : (s.conn.slot s.conn.wnd).len = 0) : drainTurn s = none := by
  obtain ⟨hn, -⟩ | ⟨-, hne, -⟩ | ⟨-, hlong, -⟩ := drainTurn_cases s
  · exact hn
  · exact absurd h hne
  · omega

/-- Where the output is not full after a data frame and its reply is answered `Ok`, RECV goes on. -/
theorem handleFrame_data_stays {s : State} {q a : Seq} {pl : List Byte} (ho : s.op = .recv)
    (hp : s.phase = .recvPass) (hpl : pl.length ≤ s.cfg.maxp) (hw : s.writeAnswer = .ok)
    (hroom : (s.afterData q pl).work.outcnt < (s.afterData q pl).work.cap) :
    handleFrame (.data q a pl) s = .next ((s.afterData q pl).replied q) := by
  rw [handleFrame_data_of_ok ho hp hpl hw, if_neg hroom.ne]

/-- Settles O38: one past the window the offset is `W`; at the last place the frame is stored and the empty head stops the
drain. -/
theorem windowBoundary : Obligations.WindowBoundary := by
  intro s a pl hw ho hp hans hroom hne hpl
  obtain ⟨hl, -, hwnd, -⟩ := id hw
  have hw32 := width_le_32 hl
  refine ⟨?_, fun hw1 hhead hlast => ?_⟩
  · have hoff := seqOffset_add_self s.conn.ack (n := s.cfg.w) (by omega)
    have hafter : s.afterData (s.conn.ack + BitVec.ofNat 16 s.cfg.w) pl = s.setTicks 0 :=
      afterData_of_not_accepts fun ⟨hlt, _⟩ => by omega
    refine ⟨_, handleFrame_data_stays ho hp hpl hans (by rwa [hafter]), ?_⟩
    rw [hafter]
    exact ⟨rfl, rfl, rfl, ho⟩
  · have hoff := seqOffset_add_self s.conn.ack (n := s.cfg.w - 1) (by omega)
    generalize s.conn.ack + BitVec.ofNat 16 (s.cfg.w - 1) = q at hoff ⊢
    have hslot : s.slotOf q = (s.conn.wnd + (s.cfg.w - 1)) % s.cfg.w := by rw [slotOf_eq, hoff]
    rw [← hslot] at hlast ⊢
    have hnothead : s.slotOf q ≠ s.conn.wnd := by
      have h := add_mod_ne (w := s.cfg.w) s.conn.wnd (i := s.cfg.w - 1) (j := 0) (by omega) (by omega) (by omega)
      rwa [Nat.add_zero, Nat.mod_eq_of_lt hwnd, ← hslot] at h
    have hstop : drainTurn (s.stored q pl) = none :=
      drainTurn_of_head_empty ((congrArg Slot.len (slot_stored_ne hnothead)).trans hhead)
    have hafter : s.afterData q pl = s.stored q pl :=
      (afterData_of_accepts ⟨by omega, hlast, hne⟩).trans (drain_of_none hstop)
    refine ⟨_, handleFrame_data_stays ho hp hpl hans (by rwa [hafter]), ?_⟩
    rw [hafter]
    exact ⟨bytes_slot_stored_same hw, rfl, rfl, rfl, ho⟩

end Sys2Proof.Machine
end

section
/-! PROOFS. Reassembly: the packets of a window, arriving in any order, reach `OUT` in theirs (R58, R130, R134, R137). -/

namespace Sys2Proof.Machine

/-! ### The slots by their distance from the head (R34) -/

/-- The slot `j` places ahead of the head (R34). -/
def State.ahead (j : Nat) (s : State) : Slot := s.conn.slot ((s.conn.wnd + j) % s.cfg.w)

/-- Every slot is some place ahead of the head. -/
theorem exists_ahead {w a p : Nat} (ha : a < w) (hp : p < w) : ∃ j < w, (a + j) % w = p := by
  by_cases hle : a ≤ p
  · exact ⟨p - a, by omega, by rw [Nat.add_sub_cancel' hle, Nat.mod_eq_of_lt hp]⟩
  · refine ⟨p + w - a, by omega, ?_⟩
    rw [Nat.add_sub_cancel' (by omega), Nat.add_mod_right, Nat.mod_eq_of_lt hp]

section
variable {s : State}

theorem ahead_zero (h : Window s) : s.ahead 0 = s.conn.slot s.conn.wnd := by
  obtain ⟨-, -, hwnd, -⟩ := h
  rw [State.ahead, Nat.add_zero, Nat.mod_eq_of_lt hwnd]

theorem window_empty_iff (h : Window s) :
    (∀ v ∈ s.conn.win, v.len = 0) ↔ ∀ j < s.cfg.w, (s.ahead j).bytes = [] := by
  obtain ⟨hl, hlen, hwnd, -⟩ := h
  simp only [Slot.bytes_eq_nil_iff]
  constructor
  · intro hall j _
    have hp : (s.conn.wnd + j) % s.cfg.w < s.conn.win.length := (Nat.mod_lt _ (slots_pos hl)).trans_eq hlen.symm
    rw [State.ahead, Conn.slot, List.getD_eq_getElem _ _ hp]
    exact hall _ (List.getElem_mem hp)
  · intro hall v hv
    obtain ⟨p, hp, rfl⟩ := List.getElem_of_mem hv
    obtain ⟨j, hj, rfl⟩ := exists_ahead hwnd (hlen ▸ hp)
    rw [← List.getD_eq_getElem _ Slot.empty]
    exact hall j hj

theorem head_empty_of_pending_nil (h : Window s) (hp : s.pending = []) : (s.ahead 0).len = 0 := by
  rw [ahead_zero h]
  by_contra hne
  rw [pending_of_head_occupied h hne, List.append_eq_nil_iff, Slot.bytes_eq_nil_iff] at hp
  exact hne hp.1

end

/-! ### A drain with room for everything -/

section
variable {s t : State}

/-- With room in the output for more than the window holds in order, the drain delivers all of that. -/
theorem drain_of_room (h : Window s) (hroom : s.work.outcnt + s.pending.length < s.work.cap) :
    (drain s).pending = [] ∧ (drain s).work.outcnt = s.work.outcnt + s.pending.length ∧
      (drain s).out.readBytes s.work.outcnt s.pending.length = s.pending := by
  obtain ⟨-, hstream, hle, -⟩ := drain_delivers h
  have hlen := congrArg List.length hstream
  rw [List.length_append, Memory.length_readBytes] at hlen
  have hnil : (drain s).pending = [] := (drain_stops (by omega)).resolve_left (by omega)
  rw [hnil, List.length_nil, Nat.add_zero] at hlen
  rw [hnil, List.append_nil, hlen] at hstream
  exact ⟨hnil, by omega, hstream⟩

section
variable {k j : Nat} (h : Consumed s t k) (hcfg : t.cfg = s.cfg)
include h hcfg

theorem Consumed.ahead_eq : t.ahead j = t.conn.slot ((s.conn.wnd + (k + j)) % s.cfg.w) := by
  rw [State.ahead, h.wnd, hcfg, Nat.mod_add_mod, Nat.add_assoc]

/-- The slots not consumed are as they were, where the output is not full. -/
theorem Consumed.ahead_kept (hroom : t.work.outcnt < t.work.cap) (hj : k + j < s.cfg.w) :
    t.ahead j = s.ahead (k + j) := by
  rw [h.ahead_eq hcfg]
  cases j with
  | zero => rw [Nat.add_zero, ← h.wnd, h.head_untouched hroom hj, State.ahead, ← h.wnd]
  | succ j => exact h.kept _ hj (by omega)

/-- The slots consumed are the last ones ahead of the new head, and empty. -/
theorem Consumed.ahead_emptied (hj : j < s.cfg.w) (hkj : s.cfg.w ≤ k + j) : (t.ahead j).len = 0 := by
  obtain ⟨-, hempty⟩ := h.emptied (k + j - s.cfg.w) (by omega)
  have hsum : s.conn.wnd + (k + j) = s.conn.wnd + (k + j - s.cfg.w) + s.cfg.w := by omega
  rwa [h.ahead_eq hcfg, hsum, Nat.add_mod_right]

/-- Where everything was delivered, the slots consumed are the occupied ones up to the first gap. -/
theorem Consumed.eq_run {m : Nat} (ht : Window t) (hroom : t.work.outcnt < t.work.cap) (hp : t.pending = [])
    (hrun : ∀ j < m, (s.ahead j).len ≠ 0) (hm : m ≤ s.cfg.w) (hgap : m < s.cfg.w → (s.ahead m).len = 0) :
    k = m := by
  have hle := h.le
  obtain hlt | heq | hgt := Nat.lt_trichotomy k m
  · have hhead := head_empty_of_pending_nil ht hp
    rw [h.ahead_kept hcfg hroom (j := 0) (by omega)] at hhead
    exact absurd hhead (hrun k hlt)
  · exact heq
  · obtain ⟨hne, -⟩ := h.emptied m hgt
    exact absurd (hgap (by omega)) hne

end

end

/-! ### What waits in the window -/

/-- What waits for delivery under number `j`, counted from the first packet: its payload once it has arrived. -/
def waiting (payloads : List (List Byte)) (arrived : List Nat) (j : Nat) : List Byte :=
  if j ∈ arrived then payloads.getD j [] else []

/-- The window holds the packets that have arrived, of those from the `k`-th on, each in its place ahead of the head. -/
def State.Holds (payloads : List (List Byte)) (arrived : List Nat) (k : Nat) (s : State) : Prop :=
  ∀ j < s.cfg.w, (s.ahead j).bytes = waiting payloads arrived (k + j)

/-- The run of occupied slots from the head on, as the front of a list of payloads. -/
theorem pendingFrom_eq_take {w i n : Nat} {c : Conn} {pls : List (List Byte)} (hi : i < w)
    (h : ∀ j < n, (c.slot ((i + j) % w)).len = 0 ∨ (c.slot ((i + j) % w)).bytes = pls.getD j []) :
    ∃ m ≤ n, (∀ j < m, (c.slot ((i + j) % w)).len ≠ 0) ∧ (m < n → (c.slot ((i + m) % w)).len = 0) ∧
      pendingFrom w c n i = (pls.take m).flatten := by
  induction n generalizing i pls with
  | zero => exact ⟨0, le_rfl, nofun, nofun, rfl⟩
  | succ n ih =>
    have hfirst := h 0 (Nat.succ_pos n)
    rw [Nat.add_zero, Nat.mod_eq_of_lt hi] at hfirst
    by_cases hne : (c.slot i).len = 0
    · exact ⟨0, Nat.zero_le _, nofun, fun _ => by rwa [Nat.add_zero, Nat.mod_eq_of_lt hi],
        pendingFrom_of_empty hne⟩
    · have hbytes := hfirst.resolve_left hne
      cases pls with
      | nil => exact absurd ((Slot.bytes_eq_nil_iff _).mp hbytes) hne
      | cons pl pls =>
        have hnext : (i + 1) % w < w := Nat.mod_lt _ (by omega)
        obtain ⟨m, hm, hrun, hgap, htake⟩ := ih (pls := pls) hnext fun j hj => by
          rw [succ_mod_add_mod]
          exact h (j + 1) (by omega)
        refine ⟨m + 1, Nat.succ_le_succ hm, fun j hj => ?_, fun hlt => ?_, ?_⟩
        · cases j with
          | zero => rwa [Nat.add_zero, Nat.mod_eq_of_lt hi]
          | succ j =>
            rw [← succ_mod_add_mod]
            exact hrun j (by omega)
        · rw [← succ_mod_add_mod]
          exact hgap (by omega)
        · rw [pendingFrom_of_occupied hne, htake, hbytes]
          rfl

section
variable {s : State} {payloads : List (List Byte)} {arrived : List Nat} {k : Nat}
  (hne : ∀ pl ∈ payloads, pl ≠ []) (hlt : ∀ i ∈ arrived, i < payloads.length)
include hne hlt

theorem waiting_eq_nil_iff {j : Nat} : waiting payloads arrived j = [] ↔ j ∉ arrived := by
  unfold waiting
  split
  case isTrue hj =>
    rw [List.getD_eq_getElem _ _ (hlt j hj)]
    simp [hj, hne _ (List.getElem_mem _)]
  case isFalse hj => simp [hj]

theorem State.Holds.ahead_len_eq_zero_iff (hh : s.Holds payloads arrived k) {j : Nat} (hj : j < s.cfg.w) :
    (s.ahead j).len = 0 ↔ k + j ∉ arrived := by
  rw [← Slot.bytes_eq_nil_iff, hh j hj, waiting_eq_nil_iff hne hlt]

/-- What a window that holds packets can deliver is the payloads up to the first that is missing. -/
theorem State.Holds.pending_eq (hh : s.Holds payloads arrived k) (hw : Window s) :
    ∃ m ≤ s.cfg.w, (∀ j < m, (s.ahead j).len ≠ 0) ∧ (m < s.cfg.w → (s.ahead m).len = 0) ∧
      s.pending = ((payloads.drop k).take m).flatten := by
  obtain ⟨-, -, hwnd, -⟩ := hw
  refine pendingFrom_eq_take hwnd fun j hj => ?_
  by_cases hmem : k + j ∈ arrived
  · refine .inr ((hh j hj).trans ?_)
    rw [waiting, if_pos hmem, List.getD_eq_getElem?_getD, List.getD_eq_getElem?_getD, List.getElem?_drop]
  · exact .inl ((hh.ahead_len_eq_zero_iff hne hlt hj).mpr hmem)

/-- Where `m` slots were consumed, the window holds the packets from `m` later on. -/
theorem Consumed.holds {t : State} {m : Nat} (h : Consumed s t m) (hcfg : t.cfg = s.cfg)
    (hh : s.Holds payloads arrived k) (hn : payloads.length ≤ s.cfg.w) (hroom : t.work.outcnt < t.work.cap) :
    t.Holds payloads arrived (k + m) := by
  intro j hj
  rw [hcfg] at hj
  rw [Nat.add_assoc]
  by_cases hlast : m + j < s.cfg.w
  · rw [h.ahead_kept hcfg hroom hlast, hh _ hlast]
  · have hbeyond : k + (m + j) ∉ arrived := fun hmem => by
      have := hlt _ hmem
      omega
    rw [(waiting_eq_nil_iff hne hlt).mpr hbeyond, Slot.bytes_eq_nil_iff]
    exact h.ahead_emptied hcfg hj (by omega)

/-- With room for them, the drain delivers the packets up to the first that is missing, and the window holds the others. -/
theorem drain_of_holds (hw : Window s) (hh : s.Holds payloads arrived k) (hn : payloads.length ≤ s.cfg.w)
    (hroom : s.work.outcnt + (payloads.drop k).flatten.length < s.work.cap) :
    ∃ m, s.pending = ((payloads.drop k).take m).flatten ∧ (drain s).conn.ack = s.conn.ack + BitVec.ofNat 16 m ∧
      (drain s).Holds payloads arrived (k + m) ∧ (∀ j < m, k + j ∈ arrived) ∧ k + m ∉ arrived := by
  obtain ⟨m, hm, hrun, hgap, hpend⟩ := hh.pending_eq hne hlt hw
  have hsub : s.pending.length ≤ (payloads.drop k).flatten.length :=
    (congrArg List.length hpend).trans_le (List.take_sublist m _).flatten.length_le
  obtain ⟨hnil, hcnt, -⟩ := drain_of_room hw (by omega)
  have hleft : (drain s).work.outcnt < (drain s).work.cap := by rw [drain_cap]; omega
  obtain ⟨k', hk⟩ := drain_consumed hw
  obtain rfl : k' = m := hk.eq_run (drain_cfg s) (drain_delivers hw).1 hleft hnil hrun hm hgap
  refine ⟨k', hpend, hk.ack, hk.holds hne hlt (drain_cfg s) hh hn hleft, fun j hj => ?_, fun hmem => ?_⟩
  · have hoccupied := (hh.ahead_len_eq_zero_iff hne hlt (hj.trans_le hm)).not.mp (hrun j hj)
    exact not_not.mp hoccupied
  · have hnum := hlt _ hmem
    have hkw : k' < s.cfg.w := by omega
    exact (hh.ahead_len_eq_zero_iff hne hlt hkw).mp (hgap hkw) hmem

end

/-! ### The frames of a window, one by one -/

/-- RECV was in the state `s` when the first of the packets came, with an empty window; now, in the state `t`, those in
`arrived` have come, the first `k` of them all are in `OUT`, and the others of `arrived` wait in the window. -/
structure Gathered (s : State) (payloads : List (List Byte)) (arrived : List Nat) (k : Nat) (t : State) : Prop where
  op : t.op = .recv
  phase : t.phase = .recvPass
  window : Window t
  cfg : t.cfg = s.cfg
  cap : t.work.cap = s.work.cap
  ack : t.conn.ack = s.conn.ack + BitVec.ofNat 16 k
  numbered : ∀ i ∈ arrived, i < payloads.length
  passed : ∀ j < k, j ∈ arrived
  holds : t.Holds payloads arrived k
  outcnt : t.work.outcnt = s.work.outcnt + (payloads.take k).flatten.length
  out : t.out.readBytes s.work.outcnt (payloads.take k).flatten.length = (payloads.take k).flatten

/-- And the next one to deliver is missing. -/
structure Reassembled (s : State) (payloads : List (List Byte)) (arrived : List Nat) (k : Nat) (t : State) : Prop
    extends Gathered s payloads arrived k t where
  missing : k ∉ arrived

theorem reassembled_nil {s : State} (payloads : List (List Byte)) (hw : Window s) (ho : s.op = .recv)
    (hp : s.phase = .recvPass) (hempty : ∀ v ∈ s.conn.win, v.len = 0) : Reassembled s payloads [] 0 s where
  op := ho
  phase := hp
  window := hw
  cfg := rfl
  cap := rfl
  ack := (BitVec.add_zero _).symm
  numbered := nofun
  passed := nofun
  missing := nofun
  holds := (window_empty_iff hw).mp hempty
  outcnt := rfl
  out := rfl

section
variable {s t : State} {payloads : List (List Byte)} {arrived : List Nat} {k i : Nat}
  (h : Reassembled s payloads arrived k t) (hi : i < payloads.length) (hnew : i ∉ arrived)

include h hnew in
theorem Reassembled.le_of_new : k ≤ i := Nat.le_of_not_lt fun hik => hnew (h.passed i hik)

variable (hn : payloads.length ≤ s.cfg.w)
include h hi hnew hn

theorem Reassembled.seqOffset_eq : seqOffset (s.conn.ack + BitVec.ofNat 16 i) t.conn.ack = i - k := by
  have hw32 := width_le_32 h.window.1
  rw [h.cfg] at hw32
  have hoff := seqOffset_add_self s.conn.ack (n := i) (by omega)
  have hki := h.le_of_new hnew
  rw [h.ack, seqOffset_add_of_le (by omega), hoff]

theorem Reassembled.slot_slotOf : t.conn.slot (t.slotOf (s.conn.ack + BitVec.ofNat 16 i)) = t.ahead (i - k) := by
  rw [slotOf_eq, h.seqOffset_eq hi hnew hn, State.ahead]

/-- A packet that has not come yet is accepted (R134). -/
theorem Reassembled.accepts {pl : List Byte} (hpl : pl ≠ []) : t.Accepts (s.conn.ack + BitVec.ofNat 16 i) pl := by
  have hki := h.le_of_new hnew
  have hlt : i - k < t.cfg.w := by rw [h.cfg]; omega
  refine ⟨by rwa [h.seqOffset_eq hi hnew hn], ?_, hpl⟩
  rw [h.slot_slotOf hi hnew hn, ← Slot.bytes_eq_nil_iff, h.holds _ hlt, Nat.add_sub_cancel' hki, waiting, if_neg hnew]

/-- Once stored it waits in its place, and the others in theirs. -/
theorem Reassembled.holds_stored :
    (t.stored (s.conn.ack + BitVec.ofNat 16 i) (payloads.getD i [])).Holds payloads (i :: arrived) k := by
  have hki := h.le_of_new hnew
  have hlt : i - k < t.cfg.w := by rw [h.cfg]; omega
  have hslot : t.slotOf (s.conn.ack + BitVec.ofNat 16 i) = (t.conn.wnd + (i - k)) % t.cfg.w := by
    rw [slotOf_eq, h.seqOffset_eq hi hnew hn]
  intro j hj
  by_cases hji : i = k + j
  · have hplace : (t.conn.wnd + j) % t.cfg.w = t.slotOf (s.conn.ack + BitVec.ofNat 16 i) := by
      rw [hslot, hji, Nat.add_sub_cancel_left]
    change (Conn.slot _ ((t.conn.wnd + j) % t.cfg.w)).bytes = _
    rw [hplace, bytes_slot_stored_same h.window, waiting, ← hji, if_pos List.mem_cons_self]
  · have hplace : t.slotOf (s.conn.ack + BitVec.ofNat 16 i) ≠ (t.conn.wnd + j) % t.cfg.w := by
      rw [hslot]
      exact add_mod_ne _ hlt hj (by omega)
    change (Conn.slot _ ((t.conn.wnd + j) % t.cfg.w)).bytes = _
    rw [slot_stored_ne hplace]
    refine (h.holds j hj).trans ?_
    simp [waiting, Ne.symm hji]

theorem Reassembled.stored (hpl : (payloads.getD i []).length ≤ t.cfg.maxp) :
    Gathered s payloads (i :: arrived) k (t.stored (s.conn.ack + BitVec.ofNat 16 i) (payloads.getD i [])) where
  op := h.op
  phase := h.phase
  window := window_stored h.window hpl
  cfg := h.cfg
  cap := h.cap
  ack := h.ack
  numbered := List.forall_mem_cons.mpr ⟨hi, h.numbered⟩
  passed j hj := List.mem_cons_of_mem _ (h.passed j hj)
  holds := h.holds_stored hi hnew hn
  outcnt := h.outcnt
  out := h.out

end

/-- The reply's write moves nothing of the window, the output or the counters. -/
theorem Reassembled.replied {s t : State} {payloads : List (List Byte)} {arrived : List Nat} {k : Nat}
    (h : Reassembled s payloads arrived k t) (q : Seq) : Reassembled s payloads arrived k (t.replied q) :=
  ⟨⟨h.op, h.phase, h.window, h.cfg, h.cap, h.ack, h.numbered, h.passed, h.holds, h.outcnt, h.out⟩, h.missing⟩

section
variable {s t : State} {payloads : List (List Byte)} {arrived : List Nat} {k : Nat} (hn : payloads.length ≤ s.cfg.w)
  (hpls : ∀ pl ∈ payloads, pl ≠ [] ∧ pl.length ≤ s.cfg.maxp)
  (hroom : s.work.outcnt + payloads.flatten.length < s.work.cap)

include hroom in
/-- There is room for what has not been delivered yet. -/
theorem Gathered.room (h : Gathered s payloads arrived k t) :
    t.work.outcnt + (payloads.drop k).flatten.length < t.work.cap := by
  have hsplit : payloads.flatten.length = (payloads.take k).flatten.length + (payloads.drop k).flatten.length := by
    rw [← List.length_append, ← List.flatten_append, List.take_append_drop]
  rw [h.outcnt, h.cap]
  omega

include hn hpls hroom in
/-- The drain delivers what has become deliverable (R130). -/
theorem Gathered.drain (h : Gathered s payloads arrived k t) : ∃ k', Reassembled s payloads arrived k' (drain t) := by
  have hroom' := h.room hroom
  obtain ⟨m, hpend, hack, hholds, hpassed, hmissing⟩ :=
    drain_of_holds (fun pl hpl => (hpls pl hpl).1) h.numbered h.window h.holds (h.cfg ▸ hn) hroom'
  have hsub : t.pending.length ≤ (payloads.drop k).flatten.length :=
    (congrArg List.length hpend).trans_le (List.take_sublist m _).flatten.length_le
  obtain ⟨-, hcnt, hout⟩ := drain_of_room h.window (by omega)
  obtain ⟨hwindow, hdelivers⟩ := drain_delivers h.window
  have htake : (payloads.take (k + m)).flatten = (payloads.take k).flatten ++ t.pending := by
    rw [List.take_add, List.flatten_append, hpend]
  have hkept : (Machine.drain t).out.readBytes s.work.outcnt (payloads.take k).flatten.length =
      (payloads.take k).flatten := by
    refine (Memory.readBytes_congr fun x hx => hdelivers.outside _ (.inl ?_)).trans h.out
    rw [h.outcnt]
    omega
  refine ⟨k + m, ⟨(drain_op t).trans h.op, (drain_phase t).trans h.phase, hwindow, (drain_cfg t).trans h.cfg,
    (drain_cap t).trans h.cap, ?_, h.numbered, fun j hj => ?_, hholds, ?_, ?_⟩, hmissing⟩
  · rw [hack, h.ack, BitVec.ofNat_add, BitVec.add_assoc]
  · obtain hjk | hjk := Nat.lt_or_ge j k
    · exact h.passed j hjk
    · have hmem := hpassed (j - k) (by omega)
      rwa [Nat.add_sub_cancel' hjk] at hmem
  · rw [hcnt, htake, List.length_append, h.outcnt, Nat.add_assoc]
  · rw [htake, List.length_append, Memory.readBytes_add, hkept, ← h.outcnt, hout]

include hn hpls hroom in
/-- One more packet: it is stored, what has become deliverable is delivered, and the reply is written. -/
theorem Reassembled.step {i : Nat} (h : Reassembled s payloads arrived k t) (hi : i < payloads.length)
    (hnew : i ∉ arrived) (hans : t.writeAnswer = .ok) : ∃ (k' : Nat) (t' : State),
    handleFrame (.data (s.conn.ack + BitVec.ofNat 16 i) 0 (payloads.getD i [])) t = .next t' ∧
      t'.chan.writes = t.chan.writes.tail ∧ Reassembled s payloads (i :: arrived) k' t' := by
  have hmem : payloads.getD i [] ∈ payloads := by
    rw [List.getD_eq_getElem _ _ hi]
    exact List.getElem_mem hi
  obtain ⟨hpl, hmaxp⟩ := hpls _ hmem
  rw [← h.cfg] at hmaxp
  obtain ⟨k', hk'⟩ := (h.stored hi hnew hn hmaxp).drain hn hpls hroom
  rw [← afterData_of_accepts (h.accepts hi hnew hn hpl)] at hk'
  refine ⟨k', _, handleFrame_data_stays h.op h.phase hmaxp hans ?_, ?_, hk'.replied _⟩
  · exact (Nat.le_add_right _ _).trans_lt (hk'.room hroom)
  · rw [replied_afterData]
    rfl

include hn hpls hroom in
/-- Any number of packets that have not come yet, in any order. -/
theorem Reassembled.feedData {rest : List Nat} {ws : List WriteAnswer}
    (h : Reassembled s payloads arrived k t) (hrest : ∀ i ∈ rest, i < payloads.length)
    (hnodup : (rest ++ arrived).Nodup) (hws : t.chan.writes = List.replicate rest.length .ok ++ ws) :
    ∃ (k' : Nat) (t' : State), feedData s.conn.ack payloads rest t = .next t' ∧ t'.chan.writes = ws ∧
      Reassembled s payloads (rest.reverse ++ arrived) k' t' := by
  induction rest generalizing arrived k t with
  | nil => exact ⟨k, t, rfl, hws, h⟩
  | cons i rest ih =>
    obtain ⟨hi, hrest⟩ := List.forall_mem_cons.mp hrest
    have hnodup' : (rest ++ i :: arrived).Nodup := List.perm_middle.nodup_iff.mpr hnodup
    obtain ⟨hnotin, -⟩ := List.nodup_cons.mp hnodup
    have hnew : i ∉ arrived := fun hmem => hnotin (List.mem_append_right _ hmem)
    obtain ⟨k1, t1, hstep, hws1, h1⟩ := h.step hn hpls hroom hi hnew (writeAnswer_of_script hws)
    obtain ⟨k', t', hfeed, hws', h'⟩ := ih h1 hrest hnodup' (by rw [hws1, hws]; rfl)
    refine ⟨k', t', ?_, hws', by rwa [List.reverse_cons, List.append_assoc]⟩
    rw [Machine.feedData, hstep]
    exact hfeed

/-- When all packets have come, none is missing. -/
theorem Reassembled.eq_length (h : Reassembled s payloads arrived k t)
    (hall : ∀ i < payloads.length, i ∈ arrived) : k = payloads.length := by
  obtain hlt | heq | hgt := Nat.lt_trichotomy k payloads.length
  · exact absurd (hall k hlt) h.missing
  · exact heq
  · exact absurd (h.numbered _ (h.passed _ hgt)) (Nat.lt_irrefl _)

end

/-- Settles O39: by induction over the order of arrival, the packets before the first gap are in `OUT` and the others wait
in the window; at the end there is no gap. -/
theorem anyOrderOfArrivalIsDeliveredInOrder : Obligations.AnyOrderOfArrivalIsDeliveredInOrder := by
  intro s payloads order ws hw ho hp hempty hn hpls hperm hroom hws
  have hmem : ∀ i, i ∈ order ↔ i < payloads.length := fun i => hperm.mem_iff.trans List.mem_range
  have hlen : order.length = payloads.length := hperm.length_eq.trans List.length_range
  have hnodup : (order ++ []).Nodup := by
    rw [List.append_nil]
    exact hperm.nodup_iff.mpr List.nodup_range
  obtain ⟨k, t, hfeed, hwt, h⟩ := (reassembled_nil payloads hw ho hp hempty).feedData hn hpls hroom
    (fun i => (hmem i).mp) hnodup (by rwa [hlen])
  rw [List.append_nil] at h
  obtain rfl := h.eq_length fun i hi => List.mem_reverse.mpr ((hmem i).mpr hi)
  have hout := h.out
  have hcnt := h.outcnt
  rw [List.take_length] at hout hcnt
  refine ⟨t, hfeed, hout, hcnt, h.ack, (window_empty_iff h.window).mpr fun j hj => ?_, h.op, h.phase, hwt⟩
  rw [h.holds j hj, waiting, if_neg fun hin => ?_]
  have := h.numbered _ hin
  omega

end Sys2Proof.Machine
end

section
/-! PROOFS. CLOSE and WAIT by their labels: the issue, one turn of CLOSE's attempt loop, and the frames of both decode
passes (R140 to R144). -/

namespace Sys2Proof.Machine

/-! ### The step at the labels of CLOSE and WAIT (R18, R21) -/

section
variable {s : State} (ho : s.op = .close)
include ho

theorem step_close (hp : s.phase.op = .close) : step s = resume s := step_busy (by simp [ho]) (hp.trans ho.symm)

theorem step_closeAttempt (hp : s.phase = .closeAttempt) : step s = .next (stepCloseAttempt s) := by
  rw [step_close ho (by rw [hp]; rfl), resume, hp]

theorem step_closeWrite (hp : s.phase = .closeWrite) : step s = .next (stepCloseWrite s) := by
  rw [step_close ho (by rw [hp]; rfl), resume, hp]

theorem step_closeWait (hp : s.phase = .closeWait) : step s = stepCloseWait s := by
  rw [step_close ho (by rw [hp]; rfl), resume, hp]

theorem step_closePass (hp : s.phase = .closePass) : step s = stepPass s := by
  rw [step_close ho (by rw [hp]; rfl), resume, hp]

theorem step_closeExhausted (hp : s.phase = .closeExhausted) : step s = .next (s.finish 0) := by
  rw [step_close ho (by rw [hp]; rfl), resume, hp, stepCloseExhausted]

end

section
variable {s : State} (ho : s.op = .wait)
include ho

theorem step_wait (hp : s.phase.op = .wait) : step s = resume s := step_busy (by simp [ho]) (hp.trans ho.symm)

theorem step_waitReply (hp : s.phase = .waitReply) : step s = .next (stepWaitReply s) := by
  rw [step_wait ho (by rw [hp]; rfl), resume, hp]

end

/-! ### The issue (R140, R143) -/

theorem runClose_of_closed {s : State} (h : s.conn.closed = true) : runClose s = s.finish 0 := if_pos h

theorem runClose_of_open {s : State} (h : s.conn.closed = false) :
    runClose s = { s with phase := .closeAttempt, rx := s.rx.discard, work := { s.work with attempt := 0 } } :=
  if_neg (Bool.eq_false_iff.mp h)

/-- CLOSE issued with `max_attempts` = `n`, at its first label (R104, R140). -/
def State.issueClose (n : Word) (s : State) : State :=
  { s.issue .close .closeEntry with args := { s.args with arg0 := n } }

theorem exec_close_of_idle {s : State} (ho : s.op = .idle) (hi : s.inited = true) (n : Word) :
    exec (.close n) s = .next (runClose (s.issueClose n)) := by
  rw [exec, execClose, guardLaunch_of_idle ho fun _ => hi, State.issueClose]

/-- CLOSE issued on an open connection, at the head of its attempt loop (R140). -/
def State.closeBegun (n : Word) (s : State) : State :=
  { s.issueClose n with phase := .closeAttempt, rx := s.rx.discard, work := { s.work with attempt := 0 } }

theorem exec_close_of_open {s : State} (ho : s.op = .idle) (hi : s.inited = true) (hc : s.conn.closed = false)
    (n : Word) : exec (.close n) s = .next (s.closeBegun n) := by
  rw [exec_close_of_idle ho hi, runClose_of_open (s := s.issueClose n) hc]
  rfl

/-- Settles O22: CLOSE passes the launch test and runs its entry. -/
theorem closeIsIssued : Obligations.CloseIsIssued := by
  intro s n ho hi
  cases hc : s.conn.closed with
  | true =>
    rw [exec_close_of_idle ho hi, runClose_of_closed (s := s.issueClose n) hc]
    exact congrArg Host.Outcome.next (endWith_of_idle (s := { s with args := { s.args with arg0 := n } }) ho 0)
  | false =>
    rw [exec_close_of_open ho hi hc]
    rfl

/-- Settles O23: WAIT passes the launch test and runs its entry, which does not look at `CLOSED`. -/
theorem waitIsIssued : Obligations.WaitIsIssued := by
  intro s n ho hi
  rw [exec, execWait, guardLaunch_of_idle ho fun _ => hi]
  rfl

/-! ### One turn of CLOSE's attempt loop (R140, R142) -/

/-- The frame FIN(`SEQ`, `ACK`) (row c of R69). -/
def State.ownFin (s : State) : List Byte := encodeFrame (flagFin s.cfg) s.conn.seq s.conn.ack []

/-- CLOSE with one more attempt counted (R140). -/
def State.countAttempt (s : State) : State := { s with work := { s.work with attempt := s.work.attempt + 1 } }

section
variable {s : State}

theorem stepCloseAttempt_of_lt (h : s.work.attempt.toNat < s.args.arg0.toNat) :
    stepCloseAttempt s = txFinOwn .closeWrite s.countAttempt := if_pos (BitVec.lt_def.mpr h)

theorem stepCloseAttempt_of_le (h : s.args.arg0.toNat ≤ s.work.attempt.toNat) :
    stepCloseAttempt s = s.goto .closeExhausted := if_neg (BitVec.not_lt.mpr (BitVec.le_def.mpr h))

/-- With no attempt left the loop's head returns 0 (R140, R142). -/
theorem run_closeExhausted (ho : s.op = .close) (hp : s.phase = .closeAttempt)
    (h : s.args.arg0.toNat ≤ s.work.attempt.toNat) : run 2 s = .next (s.finish 0) := by
  have hend := step_closeExhausted (s := s.goto .closeExhausted) ho rfl
  rw [run_of_step (step_closeAttempt ho hp), stepCloseAttempt_of_le h, run_of_step hend]
  rfl

/-- The state after an attempt was counted and its FIN made and written, before the answer is looked at (R95, R140). -/
def State.finWritten (s : State) : State :=
  { txFinOwn .closeWrite s.countAttempt with chan := (s.logWrite s.ownFin).chan }

/-- The state after that answer was `Ok`, at the head of the wait (R140, R141). -/
def State.finSent (s : State) : State := (s.finWritten.setTicks 0).goto .closeWait

theorem stepCloseWrite_of_ok (h : s.writeAnswer = .ok) :
    stepCloseWrite (txFinOwn .closeWrite s.countAttempt) = s.finSent := by
  rw [stepCloseWrite, txFinOwn, chanWrite_txFrame_of_ok (s := s.countAttempt) h]
  rfl

theorem stepCloseWrite_of_err (h : s.writeAnswer = .err) :
    stepCloseWrite (txFinOwn .closeWrite s.countAttempt) = s.finWritten.raise .tx := by
  rw [stepCloseWrite, txFinOwn, chanWrite_txFrame_of_err (s := s.countAttempt) h]
  rfl

end

/-- Settles O41: the attempt's FIN is made, and the write that follows is of that frame. -/
theorem closeSendsItsFin : Obligations.CloseSendsItsFin := by
  intro s ho hp
  refine ⟨fun hlt => ?_, run_closeExhausted ho hp⟩
  have hwrite := step_closeWrite (s := txFinOwn .closeWrite s.countAttempt) ho rfl
  refine ⟨s.ownFin, txFinOwn .closeWrite s.countAttempt, s.finWritten, ?_, rfl, rfl, ?_, fun h => ?_, fun h => ?_⟩
  · rw [State.ownFin, flagFin_eq_ofNat]
  · rw [step_closeAttempt ho hp, stepCloseAttempt_of_lt hlt]
  · rw [hwrite, stepCloseWrite_of_ok h]
    rfl
  · rw [hwrite, stepCloseWrite_of_err h]
    rfl

/-! ### The frames (R141, R143, R144) -/

/-- Settles O42: data and ACK frames are skipped, and a FIN ends the command. -/
theorem framesInClose : Obligations.FramesInClose := by
  intro s q a pl ho hp
  exact ⟨dataMeaning_close ho hp q pl, ackMeaning_close ho hp a, finMeaning_close ho hp q a⟩

/-- In WAIT's decode pass a frame of any class has the one meaning (R143). -/
theorem exec_frame_wait {s : State} {i : Instr} (hi : i.isFrame = true) (ho : s.op = .wait) (hp : s.phase = .waitPass) :
    exec i s = .next (waitReplyArm s) := by
  cases i with
  | data q _ pl => exact dataMeaning_wait ho hp q pl
  | ack _ a _ => exact ackMeaning_wait ho hp a
  | fin q a _ => exact finMeaning_wait ho hp q a
  | flag11 q a pl =>
    cases h : s.cfg.flag11 with
    | ack => exact (exec_flag11_ack h q a pl).trans (ackMeaning_wait ho hp a)
    | fin => exact (exec_flag11_fin h q a pl).trans (finMeaning_wait ho hp q a)
  | _ => cases hi

/-- Settles O45: the one meaning makes the reply, and the write that follows is of that frame. -/
theorem framesInWait : Obligations.FramesInWait := by
  intro s i hi ho hp
  have hreply := step_waitReply (s := waitReplyArm s) ho rfl
  refine ⟨s.ownFin, waitReplyArm s, _, ?_, rfl, rfl, exec_frame_wait hi ho hp, fun h => ?_, fun h => ?_⟩
  · rw [State.ownFin, flagFin_eq_ofNat]
  · rw [hreply, stepWaitReply, waitReplyArm, txFinOwn, chanWrite_txFrame_of_ok h]
    rfl
  · rw [hreply, stepWaitReply, waitReplyArm, txFinOwn, chanWrite_txFrame_of_err h]
    rfl

end Sys2Proof.Machine
end

section
/-! PROOFS. CLOSE from its issue to its return: answered by a FIN at once (R140, R141), and against a silent channel
(R142, R175). -/

namespace Sys2Proof.Machine

/-! ### One attempt, up to the wait (R140) -/

theorem run_finSent {s : State} (ho : s.op = .close) (hp : s.phase = .closeAttempt)
    (hlt : s.work.attempt.toNat < s.args.arg0.toNat) (hw : s.writeAnswer = .ok) : run 2 s = .next s.finSent := by
  have hwrite := step_closeWrite (s := txFinOwn .closeWrite s.countAttempt) ho rfl
  rw [run_of_step (step_closeAttempt ho hp), stepCloseAttempt_of_lt hlt, run_of_step hwrite, stepCloseWrite_of_ok hw]
  rfl

theorem finSent_trace {s : State} (hw : s.writeAnswer = .ok) :
    s.finSent.chan.trace = .write s.conn.ctx s.ownFin .ok :: s.chan.trace :=
  congrArg (fun a => Transaction.write s.conn.ctx s.ownFin a :: s.chan.trace) hw

/-! ### A FIN frame is the next thing read (R99, R101, R141) -/

/-- DECODE of a FIN frame alone. -/
theorem decodeFrame_finFrame {c : Config} (hc : c.Legal) (q a : Seq) :
    decodeFrame c (encodeFrame (flagFin c) q a []) =
      .packet { flag := flagFin c, seq := q, ack := a, payload := [] } 9 := by
  obtain ⟨-, -, hmaxp, -⟩ := hc
  have h := decodeFrame_encodeFrame_append (payload := []) q a [] hmaxp (tagOf_mkFlag c.tag 0b10) (Nat.zero_le _)
  rwa [List.append_nil] at h

/-- A packet with the FIN flag is a FIN frame (R66). -/
theorem instr_finFrame (c : Config) (q a : Seq) (pl : List Byte) :
    Packet.instr { flag := flagFin c, seq := q, ack := a, payload := pl } = .fin q a pl := by
  simp [Packet.instr, flagFin]

section
variable {s : State} {q a : Seq}

theorem step_closePass_fin (ho : s.op = .close) (hp : s.phase = .closePass) (hc : s.cfg.Legal)
    (hb : s.rx.bytes = encodeFrame (flagFin s.cfg) q a []) :
    step s = .next (closeFinArm { s with rx := s.rx.consume 9 }) := by
  rw [step_closePass ho hp, stepPass_of_packet (hb ▸ decodeFrame_finFrame hc q a), instr_finFrame]
  exact finMeaning_close (s := { s with rx := s.rx.consume 9 }) ho hp q a

/-- In the wait, with `RXBUF` empty and a FIN the next thing read, CLOSE sets `CLOSED` and returns 0 after one
read (R141). -/
theorem run_finRead {rs : List ReadAnswer} (ho : s.op = .close) (hp : s.phase = .closeWait) (hc : s.cfg.Legal)
    (hrx : s.rx.fill = 0) (hr : s.chan.reads = .bytes (encodeFrame (flagFin s.cfg) q a []) :: rs) :
    ∃ t, run 2 s = .next t ∧ t.op = .idle ∧ t.result = 0 ∧ t.conn = { s.conn with closed := true } ∧
      t.chan.reads = rs ∧ t.chan.writes = s.chan.writes ∧
      t.chan.trace = .read s.conn.ctx s.cfg.rxcap (.bytes (encodeFrame (flagFin s.cfg) q a [])) :: s.chan.trace := by
  obtain ⟨-, -, -, hcap⟩ := id hc
  have hroom : s.room = s.cfg.rxcap := by rw [State.room, hrx, Nat.sub_zero]
  have hfits : (encodeFrame (flagFin s.cfg) q a []).length ≤ s.room := by
    rw [length_encodeFrame, hroom, List.length_nil]; omega
  have hgot : step s = .next (State.goto .closePass
      { s.logRead s.room with rx := s.rx.append (encodeFrame (flagFin s.cfg) q a []) }) := by
    rw [step_closeWait ho hp, stepCloseWait, rxRead_of_bytes (readAnswer_of_script hr _) hfits]
    rfl
  have hbytes : (s.rx.append (encodeFrame (flagFin s.cfg) q a [])).bytes = encodeFrame (flagFin s.cfg) q a [] := by
    have hempty : s.rx.bytes = [] := by rw [RxBuf.bytes, hrx]; rfl
    rw [RxBuf.append_bytes, hempty, List.nil_append]
  have hfin := step_closePass_fin (s := State.goto .closePass
    { s.logRead s.room with rx := s.rx.append (encodeFrame (flagFin s.cfg) q a []) }) ho rfl hc hbytes
  refine ⟨_, (run_of_step hgot 1).trans (run_of_step hfin 0), rfl, rfl, rfl, congrArg List.tail hr, rfl, ?_⟩
  change Transaction.read s.conn.ctx s.room (s.readAnswer s.room) :: s.chan.trace = _
  rw [readAnswer_of_script hr, hroom]

end

/-- Settles O43: the first attempt's FIN is written, and the wait that follows reads the peer's. -/
theorem closeHandshakeCompletes : Obligations.CloseHandshakeCompletes := by
  intro s s1 n q a rs ws hc ho hi hcl hpos hr hw hs1
  cases (exec_close_of_open ho hi hcl n).symm.trans hs1
  have hok : (s.closeBegun n).writeAnswer = .ok := writeAnswer_of_script (s := s.closeBegun n) hw
  have hsent := run_finSent (s := s.closeBegun n) rfl rfl hpos hok
  obtain ⟨t, hread, hop, hres, hconn, hreads, hwrites, htrace⟩ :=
    run_finRead (s := (s.closeBegun n).finSent) rfl rfl hc rfl hr
  refine ⟨4, t, (run_add hsent).trans hread, hop, hres, hconn, hreads, ?_, ?_⟩
  · exact hwrites.trans (congrArg List.tail hw)
  · rw [htrace, finSent_trace hok]
    rfl

/-! ### What CLOSE's attempts and empty reads leave alone -/

/-- From `s` to `t` CLOSE made `fins` attempts, each with one write, and `reads` reads, and touched neither its operand nor
the Connection State. -/
structure CloseTried (fins reads : Nat) (s t : State) : Prop where
  op : t.op = s.op
  args : t.args = s.args
  conn : t.conn = s.conn
  attempt : t.work.attempt.toNat = s.work.attempt.toNat + fins
  readsLeft : t.chan.reads = s.chan.reads.drop reads
  writesLeft : t.chan.writes = s.chan.writes.drop fins
  readsMade : t.readsMade = s.readsMade + reads
  writesMade : t.writesMade = s.writesMade + fins

section
variable {s t u : State} {f g r n m : Nat} {rs : List ReadAnswer} {ws : List WriteAnswer}

theorem CloseTried.refl (s : State) : CloseTried 0 0 s s := ⟨rfl, rfl, rfl, rfl, rfl, rfl, rfl, rfl⟩

theorem CloseTried.goto (h : CloseTried f r s t) (p : Phase) : CloseTried f r s (t.goto p) :=
  ⟨h.op, h.args, h.conn, h.attempt, h.readsLeft, h.writesLeft, h.readsMade, h.writesMade⟩

theorem CloseTried.trans (h : CloseTried f r s t) (h' : CloseTried g m t u) : CloseTried (f + g) (r + m) s u where
  op := h'.op.trans h.op
  args := h'.args.trans h.args
  conn := h'.conn.trans h.conn
  attempt := by rw [h'.attempt, h.attempt, Nat.add_assoc]
  readsLeft := by rw [h'.readsLeft, h.readsLeft, List.drop_drop]
  writesLeft := by rw [h'.writesLeft, h.writesLeft, List.drop_drop]
  readsMade := by rw [h'.readsMade, h.readsMade, Nat.add_assoc]
  writesMade := by rw [h'.writesMade, h.writesMade, Nat.add_assoc]

theorem CloseTried.patience (h : CloseTried f r s t) : t.patience = s.patience := by
  rw [State.patience, State.patience, h.conn]

theorem closeTried_finSent (hlt : s.work.attempt.toNat < s.args.arg0.toNat) : CloseTried 1 0 s s.finSent where
  op := rfl
  args := rfl
  conn := rfl
  attempt := by
    have hmax := s.args.arg0.isLt
    exact BitVec.toNat_add_of_lt (show s.work.attempt.toNat + 1 < 2 ^ 32 by omega)
  readsLeft := rfl
  writesLeft := List.drop_one.symm
  readsMade := List.countP_cons_of_neg nofun
  writesMade := List.countP_cons_of_pos rfl

/-! ### The wait on a silent channel (R99, R141) -/

/-- The state after a read answered with nothing (R99). -/
def State.emptyRead (s : State) : State := (s.logRead s.room).setTicks (s.work.ticks + 1)

theorem closeTried_emptyRead (s : State) : CloseTried 0 1 s s.emptyRead where
  op := rfl
  args := rfl
  conn := rfl
  attempt := rfl
  readsLeft := List.drop_one.symm
  writesLeft := rfl
  readsMade := List.countP_cons_of_pos rfl
  writesMade := List.countP_cons_of_neg nofun

theorem silent_add (n m : Nat) (rs : List ReadAnswer) : silent (n + m) rs = silent n (silent m rs) := by
  rw [silent, silent, silent, List.replicate_add, List.append_assoc]

theorem drop_silent (n : Nat) (rs : List ReadAnswer) : (silent n rs).drop n = rs :=
  List.drop_left' List.length_replicate

/-- While reads of the wait are left, `TICKS` does not wrap. -/
theorem toNat_ticks_add_one (h : s.work.ticks.toNat + (m + 1) = s.patience) :
    (s.work.ticks + 1).toNat = s.work.ticks.toNat + 1 := by
  have hmax := s.conn.maxTimeout.isLt
  rw [State.patience] at h
  exact BitVec.toNat_add_of_lt (show s.work.ticks.toNat + 1 < 2 ^ 32 by omega)

/-- With `m` more empty reads to make after this one, the timeout has come exactly when `m` is 0 (R99). -/
theorem maxTimeout_le_iff (h : s.work.ticks.toNat + (m + 1) = s.patience) :
    s.conn.maxTimeout ≤ s.work.ticks + 1 ↔ m = 0 := by
  rw [BitVec.le_def, toNat_ticks_add_one h]
  rw [State.patience] at h
  omega

section
variable (ho : s.op = .close) (hp : s.phase = .closeWait)
include ho hp

theorem step_closeWait_of_timedOut (ha : s.readAnswer s.room = .bytes []) (h : s.conn.maxTimeout ≤ s.work.ticks + 1) :
    step s = .next (s.emptyRead.goto .closeAttempt) := by
  rw [step_closeWait ho hp, stepCloseWait, rxRead_of_tick ha, if_pos h]
  rfl

theorem step_closeWait_of_tick (ha : s.readAnswer s.room = .bytes []) (h : ¬ s.conn.maxTimeout ≤ s.work.ticks + 1) :
    step s = .next s.emptyRead := by
  rw [step_closeWait ho hp, stepCloseWait, rxRead_of_tick ha, if_neg h]
  rfl

/-- The wait's last `m + 1` reads, by induction on `m`: the last of them ends the attempt. -/
theorem run_closeWait_of_silent (hm : s.work.ticks.toNat + (m + 1) = s.patience)
    (hr : s.chan.reads = silent (m + 1) rs) :
    ∃ t, run (m + 1) s = .next t ∧ t.phase = .closeAttempt ∧ CloseTried 0 (m + 1) s t := by
  induction m generalizing s with
  | zero =>
    have hend := step_closeWait_of_timedOut ho hp (readAnswer_of_script hr s.room) ((maxTimeout_le_iff hm).mpr rfl)
    exact ⟨_, run_of_step hend 0, rfl, (closeTried_emptyRead s).goto _⟩
  | succ m ih =>
    have hstay := step_closeWait_of_tick ho hp (readAnswer_of_script hr s.room)
      ((maxTimeout_le_iff hm).not.mpr (Nat.succ_ne_zero m))
    have hticks : s.emptyRead.work.ticks.toNat + (m + 1) = s.patience := by
      have hsucc : s.emptyRead.work.ticks.toNat = s.work.ticks.toNat + 1 := toNat_ticks_add_one hm
      omega
    obtain ⟨t, hrun, hpt, ht⟩ := ih (s := s.emptyRead) ho hp hticks (congrArg List.tail hr)
    refine ⟨t, (run_of_step hstay _).trans hrun, hpt, ?_⟩
    have hall := (closeTried_emptyRead s).trans ht
    rwa [Nat.add_comm 1] at hall

end

/-! ### The attempts on a silent channel (R142, R175) -/

section
variable (ho : s.op = .close) (hp : s.phase = .closeAttempt)
include ho hp

/-- One attempt: its FIN is written, and the wait runs into its timeout. -/
theorem run_attempt_of_silent (hlt : s.work.attempt.toNat < s.args.arg0.toNat)
    (hr : s.chan.reads = silent s.patience rs) (hw : s.writeAnswer = .ok) :
    ∃ (k : Nat) (t : State), run k s = .next t ∧ t.phase = .closeAttempt ∧ CloseTried 1 s.patience s t := by
  obtain ⟨m, hm⟩ : ∃ m, s.patience = m + 1 := Nat.exists_eq_succ_of_ne_zero (by rw [State.patience]; omega)
  rw [hm] at hr ⊢
  obtain ⟨t, hrun, hpt, ht⟩ :=
    run_closeWait_of_silent (s := s.finSent) ho rfl ((Nat.zero_add _).trans hm.symm) hr
  refine ⟨2 + (m + 1), t, (run_add (run_finSent ho hp hlt hw)).trans hrun, hpt, ?_⟩
  have hall := (closeTried_finSent hlt).trans ht
  rwa [Nat.zero_add] at hall

/-- The `n` attempts left, by induction on their number. -/
theorem run_attempts_of_silent (hn : s.work.attempt.toNat + n = s.args.arg0.toNat)
    (hr : s.chan.reads = silent (n * s.patience) rs) (hw : s.chan.writes = List.replicate n .ok ++ ws) :
    ∃ (k : Nat) (t : State), run k s = .next t ∧ t.phase = .closeAttempt ∧ CloseTried n (n * s.patience) s t := by
  induction n generalizing s with
  | zero => exact ⟨0, s, rfl, hp, by rw [Nat.zero_mul]; exact .refl s⟩
  | succ n ih =>
    rw [Nat.succ_mul, Nat.add_comm (n * s.patience)] at hr ⊢
    rw [silent_add] at hr
    obtain ⟨k, t, hrun, hpt, ht⟩ := run_attempt_of_silent ho hp (by omega) hr (writeAnswer_of_script hw)
    have hleft : t.work.attempt.toNat + n = t.args.arg0.toNat := by rw [ht.attempt, ht.args]; omega
    have hreads : t.chan.reads = silent (n * t.patience) rs := by rw [ht.readsLeft, hr, drop_silent, ht.patience]
    have hwrites : t.chan.writes = List.replicate n .ok ++ ws := by rw [ht.writesLeft, hw]; rfl
    obtain ⟨k', u, hrun', hpu, hu⟩ := ih (ht.op.trans ho) hpt hleft hreads hwrites
    refine ⟨k + k', u, (run_add hrun).trans hrun', hpu, ?_⟩
    rw [ht.patience] at hu
    rw [Nat.add_comm n 1]
    exact ht.trans hu

end

end

/-- Settles O44: every attempt writes its FIN and reads until its timeout, and the loop's head then returns 0. -/
theorem closeAgainstASilentChannel : Obligations.CloseAgainstASilentChannel := by
  intro s s1 n rs ws ho hi hcl hr hw hs1
  cases (exec_close_of_open ho hi hcl n).symm.trans hs1
  obtain ⟨k, t, hrun, hpt, ht⟩ :=
    run_attempts_of_silent (s := s.closeBegun n) rfl rfl (Nat.zero_add _) hr hw
  have hspent : t.args.arg0.toNat ≤ t.work.attempt.toNat := by rw [ht.attempt, ht.args]; exact Nat.le_add_left ..
  have hend := run_closeExhausted (ht.op.trans rfl) hpt hspent
  refine ⟨k + 2, t.finish 0, (run_add hrun).trans hend, rfl, rfl, ht.conn, ?_, ?_, ht.readsMade, ht.writesMade⟩
  · exact ht.readsLeft.trans ((congrArg (List.drop _) hr).trans (drop_silent _ rs))
  · exact ht.writesLeft.trans ((congrArg (List.drop _) hw).trans (List.drop_left' List.length_replicate))

end Sys2Proof.Machine
end

section
/-! PROOFS. Where the machine stops: an instruction outside its domain is refused by name, and a step stops only for what the host
or the channel put in (R47, R75, R171, R172). -/

namespace Sys2Proof.Machine

/-! ### Instructions outside their domain (R75, R171, R172) -/

theorem guardLaunch_of_busy {b : Bool} {s : State} {k : Outcome} (ho : s.op ≠ .idle) :
    guardLaunch b s k = .refused .busyCore := if_pos ho

theorem guardLaunch_of_not_inited {s : State} {k : Outcome} (ho : s.op = .idle) (hi : s.inited = false) :
    guardLaunch true s k = .refused .notInited := by
  simp [guardLaunch, ho, hi]

/-- Every command's meaning is behind the launch test, which looks at `INITED` for every command but INIT, and what is behind it
answers a next state or refuses the count. -/
theorem exec_command_guarded {i : Instr} (hi : i.isFrame = false) (s : State) :
    ∃ (b : Bool) (k : Outcome), exec i s = guardLaunch b s k ∧ (b = true ∨ ∃ r t x, i = .init r t x) ∧
      ((∃ t, k = .next t) ∨ k = .refused .countTooLarge) := by
  cases i with
  | data | ack | fin | flag11 => cases hi
  | init r t x => exact ⟨false, _, rfl, .inr ⟨r, t, x, rfl⟩, .inl ⟨_, rfl⟩⟩
  | send n | recv n =>
    refine ⟨true, _, rfl, .inl rfl, ?_⟩
    split
    · exact .inl ⟨_, rfl⟩
    · exact .inr rfl
  | reset | close | wait | isclosed | setclosed => exact ⟨true, _, rfl, .inl rfl, .inl ⟨_, rfl⟩⟩

theorem exec_command_of_busy {s : State} {i : Instr} (hi : i.isFrame = false) (ho : s.op ≠ .idle) :
    exec i s = .refused .busyCore := by
  obtain ⟨b, k, e, -⟩ := exec_command_guarded hi s
  rw [e, guardLaunch_of_busy ho]

theorem exec_command_of_not_inited {s : State} {i : Instr} (hi : i.isFrame = false) (ho : s.op = .idle)
    (hin : s.inited = false) : exec i s = .refused .notInited ∨ ∃ r t x, i = .init r t x := by
  obtain ⟨b, k, e, rfl | hinit, -⟩ := exec_command_guarded hi s
  · exact .inl (by rw [e, guardLaunch_of_not_inited ho hin])
  · exact .inr hinit

theorem exec_of_countTooLarge {s : State} {n : Word} (ho : s.op = .idle) (hi : s.inited = true)
    (hn : 2 ^ 31 ≤ n.toNat) :
    exec (.send n) s = .refused .countTooLarge ∧ exec (.recv n) s = .refused .countTooLarge := by
  have hd : ¬countInDomain n = true := by rw [countInDomain, decide_eq_true_iff]; exact Nat.not_lt.mpr hn
  constructor
  · rw [exec, execSend, guardLaunch_of_idle ho fun _ => hi, if_neg hd]
  · rw [exec, execRecv, guardLaunch_of_idle ho fun _ => hi, if_neg hd]

theorem dataMeaning_of_payloadTooLong {s : State} {pl : List Byte} (ho : s.op = .recv) (hp : s.phase = .recvPass)
    (hpl : s.cfg.maxp < pl.length) (q : Seq) : dataMeaning q pl s = .refused .payloadTooLong := by
  simp only [dataMeaning, ho, hp, if_neg (Nat.not_le.mpr hpl)]

/-- Settles O5: the launch test refuses for the first two reasons, SEND's and RECV's own test for the third, and RECV's data arm for
the last. -/
theorem instructionsOutsideTheirDomainAreRefused : Obligations.InstructionsOutsideTheirDomainAreRefused :=
  ⟨fun _ _ hi ho => exec_command_of_busy hi ho, fun _ _ hi ho hin => exec_command_of_not_inited hi ho hin,
    fun _ _ ho hi hn => exec_of_countTooLarge ho hi hn,
    fun _ q _ _ ho hp hpl => dataMeaning_of_payloadTooLong ho hp hpl q⟩

/-! ### A free answer keeps the channel's contract (R47, R58) -/

section
variable {s : State}

/-- Only a scripted answer can be longer than what was asked for. -/
theorem length_readAnswer_of_no_script {n : Nat} {bs : List Byte} (h : s.chan.reads = [])
    (ha : s.readAnswer n = .bytes bs) : bs.length ≤ n := by
  simp only [State.readAnswer, h] at ha
  cases hfree : Config.freeRead s.chan.drawn with
  | err => rw [hfree] at ha; cases ha
  | bytes cs =>
    rw [hfree] at ha
    cases ha
    exact List.length_take_le n cs

theorem chanRead_ne_tooLong (h : s.chan.reads = []) : (chanRead s).1 ≠ .tooLong := by
  obtain ⟨-, e⟩ | ⟨-, e⟩ | ⟨bs, ha, -, ⟨-, e⟩ | ⟨hl, -⟩⟩ := chanRead_cases s
  case inr.inr.inr => exact absurd (length_readAnswer_of_no_script h ha) (Nat.not_le.mpr hl)
  all_goals rw [e]; nofun

theorem rxRead_ne_tooLong (h : s.chan.reads = []) : (rxRead s).1 ≠ .tooLong := by
  obtain ⟨-, e⟩ | ⟨-, e⟩ | ⟨bs, ha, -, ⟨-, e⟩ | ⟨hl, -⟩⟩ := rxRead_cases s
  case inr.inr.inr => exact absurd (length_readAnswer_of_no_script h ha) (Nat.not_le.mpr hl)
  case inr.inl => rw [e]; dsimp only; split <;> nofun
  all_goals rw [e]; nofun

/-- A read point refuses only a scripted answer. -/
theorem reads_ne_nil_of_tooLong (hr : s.phase.reads = true) (h : resume s = .refused .readAnswerTooLong) :
    s.chan.reads ≠ [] := by
  intro hnil
  have hport := chanRead_ne_tooLong hnil
  have hrx := rxRead_ne_tooLong hnil
  unfold resume at h
  cases hp : s.phase <;> rw [hp] at hr h <;> cases hr
  case sendRead | recvWait | closeWait =>
    simp only [stepSendRead, stepRecvWait, stepCloseWait] at h
    split at h
    case h_5 e => exact hrx (congrArg Prod.fst e)
    all_goals cases h
  case waitPoll =>
    simp only [stepWaitPoll] at h
    split at h
    case h_4 e => exact hport (congrArg Prod.fst e)
    all_goals cases h

end

/-! ### What a step stops for -/

/-- An idle core's command is issued, or refused for one of the host's two faults (R75, R171). -/
theorem exec_command_outcome {s : State} {i : Instr} (hi : i.isFrame = false) (ho : s.op = .idle) :
    (∃ t, exec i s = .next t) ∨ exec i s = .refused .notInited ∨ exec i s = .refused .countTooLarge := by
  obtain ⟨b, k, e, -, hk⟩ := exec_command_guarded hi s
  obtain ⟨-, -, eg⟩ | ⟨hb, -⟩ | ⟨-, -, -, eg⟩ := guardLaunch_cases b s k
  · rw [e, eg]
    exact hk.imp_right .inr
  · exact absurd ho hb
  · exact .inr (.inl (e.trans eg))

/-- A busy core's step goes on, or stops at a read the script answered with too much (R47). -/
theorem busy_step_outcome {s : State} (hb : s.op ≠ .idle) (hp : s.phase.op = s.op) :
    (∃ t, step s = .next t) ∨ (s.chan.reads ≠ [] ∧ step s = .refused .readAnswerTooLong) := by
  rw [step_busy hb hp]
  cases hr : s.phase.reads with
  | true =>
    obtain e | ⟨t, e, -⟩ := resume_of_reads hp hr
    · exact .inr ⟨reads_ne_nil_of_tooLong hr e, e⟩
    · exact .inl ⟨t, e⟩
  | false =>
    cases hw : s.phase.writes with
    | true =>
      obtain ⟨t, e, -⟩ := resume_of_writes hp hw
      exact .inl ⟨t, e⟩
    | false =>
      obtain ⟨t, e, -⟩ := resume_quiet hp hb hr hw
      exact .inl ⟨t, e⟩

/-- Settles O54: an idle core stops only for its command, a busy one only at a read. -/
theorem stepStopsOnInputsOnly : Obligations.StepStopsOnInputsOnly := by
  intro s hc
  obtain ⟨ho, -⟩ | ⟨hb, hp, -⟩ := hc
  · cases hh : s.host with
    | nil => exact .inl ⟨s, step_waits ho hh⟩
    | cons c rest =>
      have hstep : step s = exec (decodeLaunch c.launch) (s.take c rest) := by rw [step_idle ho, stepIdle, hh]
      rw [hstep]
      obtain h | h | h := exec_command_outcome (s := s.take c rest) (decodeLaunch_isFrame c.launch) ho
      · exact .inl h
      · exact .inr (.inl ⟨ho, nofun, h⟩)
      · exact .inr (.inr (.inl ⟨ho, nofun, h⟩))
  · obtain h | ⟨hr, h⟩ := busy_step_outcome hb hp
    · exact .inl h
    · exact .inr (.inr (.inr ⟨hb, hr, h⟩))

end Sys2Proof.Machine
end

section
/-! PROOFS. WAIT from the head of its read loop to its end, whatever the channel answers (R143, R144, R174). -/

namespace Sys2Proof.Machine

/-! ### The counts of the transactions made (R47, R48) -/

@[simp] theorem logRead_readsMade (n : Nat) (s : State) : (s.logRead n).readsMade = s.readsMade + 1 :=
  List.countP_cons_of_pos rfl

@[simp] theorem logRead_writesMade (n : Nat) (s : State) : (s.logRead n).writesMade = s.writesMade :=
  List.countP_cons_of_neg nofun

@[simp] theorem logWrite_readsMade (bs : List Byte) (s : State) : (s.logWrite bs).readsMade = s.readsMade :=
  List.countP_cons_of_neg nofun

/-! ### The step at the labels of WAIT's loop (R18, R21) -/

section
variable {s : State} (ho : s.op = .wait)
include ho

theorem step_waitRead (hp : s.phase = .waitRead) : step s = .next (stepWaitRead s) := by
  rw [step_wait ho (by rw [hp]; rfl), resume, hp]

theorem step_waitPoll (hp : s.phase = .waitPoll) : step s = stepWaitPoll s := by
  rw [step_wait ho (by rw [hp]; rfl), resume, hp]

theorem step_waitPass (hp : s.phase = .waitPass) : step s = stepPass s := by
  rw [step_wait ho (by rw [hp]; rfl), resume, hp]

theorem step_waitDone (hp : s.phase = .waitDone) : step s = .next (s.finish 0) := by
  rw [step_wait ho (by rw [hp]; rfl), resume, hp, stepWaitDone]

end

theorem stepWaitRead_of_pos {s : State} (h : 0 < s.work.budgetLeft) :
    stepWaitRead s =
      { s with phase := .waitPoll, work := { s.work with budgetLeft := s.work.budgetLeft - 1 } } := if_pos h

theorem stepWaitRead_of_zero {s : State} (h : s.work.budgetLeft = 0) : stepWaitRead s = s.goto .waitDone :=
  if_neg (by rw [h]; decide)

/-! ### The ends of WAIT -/

/-- A run from `s` meets an answer that breaks the channel's contract, or ends with the Connection State `c`: by an error, or with 0
when `n` reads have been made in all. -/
def WaitEnds (c : Conn) (n : Nat) (s : State) : Prop :=
  ∃ k : Nat, run k s = .refused .readAnswerTooLong ∨
    ∃ t : State, run k s = .next t ∧ t.op = .idle ∧ t.conn = c ∧
      (t.result = -1 ∨ t.result = -2 ∨ (t.result = 0 ∧ t.readsMade = n))

/-- WAIT stands at `p` with the Connection State `c`, `r` reads made in all and the budget `b` left. -/
structure WaitAt (p : Phase) (c : Conn) (r : Nat) (b : Word) (s : State) : Prop where
  op : s.op = .wait
  phase : s.phase = p
  conn : s.conn = c
  reads : s.readsMade = r
  budget : s.work.budgetLeft = b

section
variable {c : Conn} {n r : Nat} {b : Word} {s t : State}

theorem WaitEnds.of_step (h : step s = .next t) (ht : WaitEnds c n t) : WaitEnds c n s := by
  obtain ⟨k, hk⟩ := ht
  exact ⟨k + 1, by rwa [run_of_step h]⟩

theorem WaitEnds.of_ended (ho : t.op = .idle) (hc : t.conn = c)
    (hr : t.result = -1 ∨ t.result = -2 ∨ (t.result = 0 ∧ t.readsMade = n)) : WaitEnds c n t :=
  ⟨0, .inr ⟨t, rfl, ho, hc, hr⟩⟩

theorem WaitEnds.of_refused (h : step s = .refused .readAnswerTooLong) : WaitEnds c n s :=
  ⟨1, .inl (by rw [run, h])⟩

/-! ### The decode pass ends (R101, R143) -/

theorem Packet.instr_isFrame (p : Packet) : p.instr.isFrame = true := by
  obtain ⟨-, e⟩ | ⟨-, e⟩ | ⟨-, e⟩ | ⟨-, e⟩ := Packet.instr_cases p <;> rw [e] <;> rfl

/-- A frame taken off `RXBUF` is answered, after which the pass goes on with fewer bytes, or WAIT ends by `ERR_TX`. -/
theorem WaitAt.after_frame (h : WaitAt .waitPass c r b s) {p : Packet} {used : Nat}
    (hd : decodeFrame s.cfg s.rx.bytes = .packet p used)
    (more : ∀ u, WaitAt .waitPass c r b u → u.rx.fill < s.rx.fill → WaitEnds c n u) : WaitEnds c n s := by
  obtain ⟨-, hu, hle⟩ := Packet.payload_le_of_decode hd
  rw [length_bytes] at hle
  have hfill : (s.rx.consume used).fill < s.rx.fill := by simp only [RxBuf.consume]; omega
  have hframe : step s = .next (waitReplyArm { s with rx := s.rx.consume used }) := by
    rw [step_waitPass h.op h.phase, stepPass_of_packet hd]
    exact exec_frame_wait (Packet.instr_isFrame p) h.op h.phase
  have hreply := step_waitReply (s := waitReplyArm { s with rx := s.rx.consume used }) h.op rfl
  refine .of_step hframe (.of_step hreply ?_)
  unfold stepWaitReply
  obtain ⟨-, e⟩ | ⟨-, e⟩ := chanWrite_cases (State.goto .waitPass) (waitReplyArm { s with rx := s.rx.consume used }) <;>
    rw [e]
  · exact more _ ⟨h.op, rfl, h.conn, (logWrite_readsMade _ _).trans h.reads, h.budget⟩ hfill
  · exact .of_ended rfl h.conn (.inr (.inl rfl))

/-- The pass comes to its end, by induction on the bytes left in `RXBUF`: back at the head of the read loop, or by `ERR_TX`. -/
theorem WaitAt.after_pass (h : WaitAt .waitPass c r b s)
    (head : ∀ u, WaitAt .waitRead c r b u → WaitEnds c n u) : WaitEnds c n s := by
  induction hf : s.rx.fill using Nat.strong_induction_on generalizing s with
  | _ f ih =>
    have hback (x : RxBuf) : WaitAt .waitRead c r b ({ s with rx := x }.goto s.phase.afterPass) :=
      ⟨h.op, by rw [h.phase]; rfl, h.conn, h.reads, h.budget⟩
    have hstep := step_waitPass h.op h.phase
    obtain ⟨-, e⟩ | ⟨-, -, e⟩ | ⟨p, used, hd, -⟩ := stepPass_cases s
    · exact .of_step (hstep.trans e) (head _ (hback s.rx))
    · exact .of_step (hstep.trans e) (head _ (hback s.rx.discard))
    · exact h.after_frame hd fun u hu hlt => ih u.rx.fill (hf ▸ hlt) hu rfl

/-! ### The read loop ends with its budget (R143) -/

/-- One read of the loop, whatever is answered. -/
theorem WaitAt.after_read (h : WaitAt .waitPoll c r b s)
    (head : ∀ u, WaitAt .waitRead c (r + 1) b u → WaitEnds c n u) : WaitEnds c n s := by
  have hstep := step_waitPoll h.op h.phase
  have hreads : (s.logRead s.room).readsMade = r + 1 := by rw [logRead_readsMade, h.reads]
  unfold stepWaitPoll at hstep
  obtain ⟨-, e⟩ | ⟨-, e⟩ | ⟨bs, -, -, ⟨-, e⟩ | ⟨-, e⟩⟩ := chanRead_cases s <;> rw [e] at hstep
  · exact .of_step hstep (.of_ended rfl h.conn (.inl rfl))
  · exact .of_step hstep (head _ ⟨h.op, rfl, h.conn, hreads, h.budget⟩)
  · exact .of_step hstep (WaitAt.after_pass ⟨h.op, rfl, h.conn, hreads, h.budget⟩ head)
  · exact .of_refused hstep

/-- From the loop's head WAIT ends, by induction on the reads its budget leaves. -/
theorem WaitAt.ends {m : Nat} (h : WaitAt .waitRead c r b s) (hm : b.toNat = m) : WaitEnds c (r + m) s := by
  induction m generalizing r b s with
  | zero =>
    have hzero : s.work.budgetLeft = 0 := h.budget.trans (BitVec.eq_of_toNat_eq hm)
    have hdone := step_waitDone (s := s.goto .waitDone) h.op rfl
    refine .of_step (step_waitRead h.op h.phase) ?_
    rw [stepWaitRead_of_zero hzero]
    exact .of_step hdone (.of_ended rfl h.conn (.inr (.inr ⟨rfl, h.reads⟩)))
  | succ m ih =>
    have hpos : 0 < s.work.budgetLeft := by
      rw [h.budget, BitVec.lt_def, hm]
      exact Nat.succ_pos m
    have hless : (b - 1).toNat = m := by bv_omega
    refine .of_step (step_waitRead h.op h.phase) ?_
    rw [stepWaitRead_of_pos hpos, Nat.add_comm m 1, ← Nat.add_assoc]
    exact WaitAt.after_read ⟨h.op, rfl, h.conn, h.reads, congrArg (· - 1) h.budget⟩ fun u hu => ih hu hless

end

/-- Settles O46: the loop's head with the state's own Connection State, reads and budget. -/
theorem waitAlwaysEnds : Obligations.WaitAlwaysEnds :=
  fun _ ho hp => WaitAt.ends ⟨ho, hp, rfl, rfl, rfl⟩ rfl

end Sys2Proof.Machine
end

section
/-! PROOFS. The wait on a silent channel that SEND and RECV share, and RECV against one (R99, R131, R175). -/

namespace Sys2Proof.Machine

/-! ### Reads answered with nothing (R99) -/

/-- From `s` to `t` the core made `reads` reads and `writes` writes, and stayed in its command with its Connection State and
parameters. -/
structure Transacted (reads writes : Nat) (s t : State) : Prop where
  op : t.op = s.op
  cfg : t.cfg = s.cfg
  conn : t.conn = s.conn
  readsLeft : t.chan.reads = s.chan.reads.drop reads
  writesLeft : t.chan.writes = s.chan.writes.drop writes
  readsMade : t.readsMade = s.readsMade + reads
  writesMade : t.writesMade = s.writesMade + writes

section
variable {s t u : State} {r r' w w' : Nat}

theorem readsMade_of_chan (h : t.chan = s.chan) : t.readsMade = s.readsMade :=
  congrArg (fun c : Chan => c.trace.countP Transaction.isRead) h

theorem writesMade_of_chan (h : t.chan = s.chan) : t.writesMade = s.writesMade :=
  congrArg (fun c : Chan => c.trace.countP fun x : Transaction => !x.isRead) h

theorem Transacted.refl (s : State) : Transacted 0 0 s s := ⟨rfl, rfl, rfl, rfl, rfl, rfl, rfl⟩

theorem Transacted.trans (h : Transacted r w s t) (h' : Transacted r' w' t u) : Transacted (r + r') (w + w') s u where
  op := h'.op.trans h.op
  cfg := h'.cfg.trans h.cfg
  conn := h'.conn.trans h.conn
  readsLeft := by rw [h'.readsLeft, h.readsLeft, List.drop_drop]
  writesLeft := by rw [h'.writesLeft, h.writesLeft, List.drop_drop]
  readsMade := by rw [h'.readsMade, h.readsMade, Nat.add_assoc]
  writesMade := by rw [h'.writesMade, h.writesMade, Nat.add_assoc]

theorem transacted_emptyRead (s : State) : Transacted 1 0 s s.emptyRead :=
  ⟨rfl, rfl, rfl, List.drop_one.symm, rfl, logRead_readsMade s.room s, logRead_writesMade s.room s⟩

theorem transacted_emptyReads (n : Nat) (s : State) : Transacted n 0 s (State.emptyRead^[n] s) := by
  induction n with
  | zero => exact .refl s
  | succ n ih =>
    rw [Function.iterate_succ_apply']
    exact ih.trans (transacted_emptyRead _)

/-- Empty reads move only the channel and `TICKS`. -/
theorem emptyReads_frame (n : Nat) (s : State) :
    State.emptyRead^[n] s =
      { s with
        chan := (State.emptyRead^[n] s).chan
        work := { s.work with ticks := (State.emptyRead^[n] s).work.ticks } } := by
  induction n with
  | zero => rfl
  | succ n ih =>
    rw [Function.iterate_succ_apply']
    generalize State.emptyRead^[n] s = t at ih ⊢
    rw [ih]
    rfl

@[simp] theorem emptyReads_out (n : Nat) (s : State) : (State.emptyRead^[n] s).out = s.out := by
  rw [emptyReads_frame]

theorem emptyReads_work (n : Nat) (s : State) :
    (State.emptyRead^[n] s).work = { s.work with ticks := (State.emptyRead^[n] s).work.ticks } :=
  congrArg State.work (emptyReads_frame n s)

@[simp] theorem emptyReads_outcnt (n : Nat) (s : State) : (State.emptyRead^[n] s).work.outcnt = s.work.outcnt := by
  rw [emptyReads_work]

end

/-! ### The wait, whichever its loop (R99, R175) -/

section
variable {a m : Nat} {P : State → Prop} {leave : State → State} {rs : List ReadAnswer}

/-- A loop of `a` steps for each read, which every empty read keeps and which is left by `leave` on the timeout: where all its reads
are answered with nothing, it is left after the one that reaches `MAX_TIMEOUT`. By induction on the reads before that one. -/
theorem run_emptyReads (keeps : ∀ u, P u → P u.emptyRead)
    (tick : ∀ u, P u → u.readAnswer u.room = .bytes [] → ¬u.conn.maxTimeout ≤ u.work.ticks + 1 →
      run a u = .next u.emptyRead)
    (timedOut : ∀ u, P u → u.readAnswer u.room = .bytes [] → u.conn.maxTimeout ≤ u.work.ticks + 1 →
      run a u = .next (leave u.emptyRead))
    {s : State} (hs : P s) (hm : s.work.ticks.toNat + (m + 1) = s.patience) (hr : s.chan.reads = silent (m + 1) rs) :
    run (a * (m + 1)) s = .next (leave (State.emptyRead^[m + 1] s)) := by
  have hnone := readAnswer_of_script hr s.room
  induction m generalizing s with
  | zero =>
    rw [Nat.zero_add, Nat.mul_one]
    exact timedOut s hs hnone ((maxTimeout_le_iff hm).mpr rfl)
  | succ m ih =>
    have hstay := tick s hs hnone ((maxTimeout_le_iff hm).not.mpr (Nat.succ_ne_zero m))
    have hticks : s.emptyRead.work.ticks.toNat + (m + 1) = s.emptyRead.patience := by
      have hsucc : s.emptyRead.work.ticks.toNat = s.work.ticks.toNat + 1 := toNat_ticks_add_one hm
      have hsame : s.emptyRead.patience = s.patience := rfl
      omega
    have hnext : s.emptyRead.chan.reads = silent (m + 1) rs := congrArg List.tail hr
    rw [Nat.mul_succ, Nat.add_comm, run_add hstay, Function.iterate_succ_apply]
    exact ih (keeps s hs) hticks hnext (readAnswer_of_script hnext _)

/-- The whole wait, which begins with `TICKS` = 0: max(1, `MAX_TIMEOUT`) reads. -/
theorem run_wait_of_silent (keeps : ∀ u, P u → P u.emptyRead)
    (tick : ∀ u, P u → u.readAnswer u.room = .bytes [] → ¬u.conn.maxTimeout ≤ u.work.ticks + 1 →
      run a u = .next u.emptyRead)
    (timedOut : ∀ u, P u → u.readAnswer u.room = .bytes [] → u.conn.maxTimeout ≤ u.work.ticks + 1 →
      run a u = .next (leave u.emptyRead))
    {s : State} (hs : P s) (ht : s.work.ticks = 0) (hr : s.chan.reads = silent s.patience rs) :
    run (a * s.patience) s = .next (leave (State.emptyRead^[s.patience] s)) := by
  obtain ⟨m, hm⟩ : ∃ m, s.patience = m + 1 := Nat.exists_eq_succ_of_ne_zero (by rw [State.patience]; omega)
  rw [hm] at hr ⊢
  exact run_emptyReads keeps tick timedOut hs (by rw [ht, hm]; exact Nat.zero_add _) hr

end

/-! ### RECV's wait (R131) -/

section
variable {s : State} (ho : s.op = .recv) (hp : s.phase = .recvWait)
include ho hp

theorem step_recvWait : step s = stepRecvWait s := by
  rw [step_recv ho (by rw [hp]; rfl), resume, hp]

theorem step_recvWait_of_tick (ha : s.readAnswer s.room = .bytes []) (h : ¬s.conn.maxTimeout ≤ s.work.ticks + 1) :
    step s = .next s.emptyRead := by
  rw [step_recvWait ho hp, stepRecvWait, rxRead_of_tick ha, if_neg h]
  rfl

theorem step_recvWait_of_timedOut (ha : s.readAnswer s.room = .bytes []) (h : s.conn.maxTimeout ≤ s.work.ticks + 1) :
    step s = .next (recvReturn s.emptyRead) := by
  rw [step_recvWait ho hp, stepRecvWait, rxRead_of_tick ha, if_pos h]
  rfl

/-- On a silent channel RECV's wait returns what is in `OUT` already. -/
theorem run_recvWait_of_silent {rs : List ReadAnswer} (ht : s.work.ticks = 0)
    (hr : s.chan.reads = silent s.patience rs) :
    run (1 * s.patience) s = .next (recvReturn (State.emptyRead^[s.patience] s)) :=
  run_wait_of_silent (P := fun u => u.op = .recv ∧ u.phase = .recvWait) (fun _ h => h)
    (fun _ ⟨hou, hpu⟩ ha h => run_of_step (step_recvWait_of_tick hou hpu ha h) 0)
    (fun _ ⟨hou, hpu⟩ ha h => run_of_step (step_recvWait_of_timedOut hou hpu ha h) 0) ⟨ho, hp⟩ ht hr

end

/-- RECV after its first drain, at the head of its channel loop (R128). -/
def State.recvBegun (s : State) : State := { s with phase := .recvWait, work := { s.work with ticks := 0 } }

theorem recvEntryTests_of_open {s : State} (hlt : s.work.outcnt < s.work.cap) (hc : s.conn.closed = false) :
    recvEntryTests s = s.recvBegun := by
  rw [recvEntryTests, if_neg (Nat.ne_of_lt hlt), if_neg (Bool.eq_false_iff.mp hc), State.recvBegun]

/-- Settles O40: the drain and the entry tests make no transaction, and the wait that follows runs into its timeout. -/
theorem recvAgainstASilentChannel : Obligations.RecvAgainstASilentChannel := by
  intro s s1 n rs ho hi hcl hn hr hs1 hlt
  cases (exec_recv_of_idle ho hi hn).symm.trans hs1
  obtain ⟨k, -, hentry⟩ := run_recvEntryTests (s := s.issueRecv n) rfl rfl
  have hcap : (drain (s.issueRecv n)).work.cap = n.toNat := drain_cap _
  have hopen : (drain (s.issueRecv n)).conn.closed = false := (drain_closed _).trans hcl
  have hchan : (drain (s.issueRecv n)).chan = s.chan := drain_chan _
  have hpatience : (drain (s.issueRecv n)).recvBegun.patience = s.patience :=
    congrArg (max 1 ·.toNat) (drain_maxTimeout _)
  have hop : (drain (s.issueRecv n)).op = .recv := drain_op _
  rw [recvEntryTests_of_open (hcap ▸ hlt) hopen] at hentry
  generalize drain (s.issueRecv n) = d at hentry hchan hpatience hop ⊢
  have hreads : d.recvBegun.chan.reads = silent d.recvBegun.patience rs := by
    rw [hpatience, ← hr]
    exact congrArg Chan.reads hchan
  have hwait := run_recvWait_of_silent (s := d.recvBegun) hop rfl rfl hreads
  have hread := transacted_emptyReads d.recvBegun.patience d.recvBegun
  rw [hpatience] at hwait hread hreads
  refine ⟨_, _, (run_add hentry).trans hwait, rfl, ?_, hread.conn, ?_, ?_, ?_, ?_⟩
  · exact congrArg (BitVec.ofNat 32) (emptyReads_outcnt _ _)
  · exact emptyReads_out _ _
  · exact hread.readsLeft.trans ((congrArg (List.drop _) hreads).trans (drop_silent _ rs))
  · exact hread.readsMade.trans (congrArg (· + s.patience) (readsMade_of_chan hchan))
  · exact hread.writesMade.trans (writesMade_of_chan hchan)

end Sys2Proof.Machine
end

section
/-! PROOFS. SEND against a silent channel, round by round (R113, R114, R116, R120, R124, R175). -/

namespace Sys2Proof.Machine

/-! ### The wait (R116, R120) -/

/-- SEND stands at the head of its wait, which neither of the two leave-tests ends. -/
structure SendWaits (s : State) : Prop where
  op : s.op = .send
  phase : s.phase = .sendWait
  unacked : burstAcked s.work.acked s.work.burstI = false
  opened : s.conn.closed = false

theorem goto_of_phase {s : State} {p : Phase} (h : s.phase = p) : s.goto p = s := by
  subst h
  rfl

section
variable {s : State}

theorem step_sendRead_of_tick (ho : s.op = .send) (hp : s.phase = .sendRead) (ha : s.readAnswer s.room = .bytes [])
    (h : ¬s.conn.maxTimeout ≤ s.work.ticks + 1) : step s = .next (s.emptyRead.goto .sendWait) := by
  rw [step_sendRead ho hp, stepSendRead, rxRead_of_tick ha, if_neg h]
  rfl

theorem step_sendRead_of_timedOut (ho : s.op = .send) (hp : s.phase = .sendRead)
    (ha : s.readAnswer s.room = .bytes []) (h : s.conn.maxTimeout ≤ s.work.ticks + 1) :
    step s = .next (leaveSendWait s.emptyRead) := by
  rw [step_sendRead ho hp, stepSendRead, rxRead_of_tick ha, if_pos h]
  rfl

theorem SendWaits.step_goto (h : SendWaits s) : step s = .next (s.goto .sendRead) := by
  rw [step_sendWait h.op h.phase, stepSendWait_of_stays h.unacked h.opened]

theorem SendWaits.run_of_tick (h : SendWaits s) (ha : s.readAnswer s.room = .bytes [])
    (ht : ¬s.conn.maxTimeout ≤ s.work.ticks + 1) : run 2 s = .next s.emptyRead := by
  have hread := step_sendRead_of_tick (s := s.goto .sendRead) h.op rfl ha ht
  rw [run_of_step h.step_goto, run_of_step hread]
  exact congrArg Host.Outcome.next (goto_of_phase (s := s.emptyRead) h.phase)

theorem SendWaits.run_of_timedOut (h : SendWaits s) (ha : s.readAnswer s.room = .bytes [])
    (ht : s.conn.maxTimeout ≤ s.work.ticks + 1) : run 2 s = .next (leaveSendWait (s.emptyRead.goto .sendRead)) :=
  (run_of_step h.step_goto 1).trans
    (run_of_step (step_sendRead_of_timedOut (s := s.goto .sendRead) h.op rfl ha ht) 0)

/-- On a silent channel the wait is left by the timeout. -/
theorem SendWaits.run_of_silent {rs : List ReadAnswer} (h : SendWaits s) (ht : s.work.ticks = 0)
    (hr : s.chan.reads = silent s.patience rs) :
    run (2 * s.patience) s = .next (leaveSendWait ((State.emptyRead^[s.patience] s).goto .sendRead)) :=
  run_wait_of_silent (leave := fun u => leaveSendWait (u.goto .sendRead))
    (fun _ hu => ⟨hu.op, hu.phase, hu.unacked, hu.opened⟩) (fun _ => SendWaits.run_of_tick)
    (fun _ => SendWaits.run_of_timedOut) h ht hr

end

/-! ### A round (R114, R116, R120) -/

/-- SEND at the head of a round, on an open connection, with data left of which nothing is acknowledged. -/
structure SendRoundAhead (s : State) : Prop where
  op : s.op = .send
  phase : s.phase = .sendRound
  legal : s.cfg.Legal
  remain : 0 < s.work.remain
  unacked : s.work.acked = 0
  opened : s.conn.closed = false

/-- From `s` to `t` SEND made `r` rounds that nobody answered: each wrote its whole burst, read max(1, `MAX_TIMEOUT`) times, counted
in `RETRY` and left the window where it was. -/
structure SilentRounds (r : Nat) (s t : State) : Prop
    extends Transacted (r * s.patience) (r * burstCount s.cfg s.work.remain) s t where
  len0 : t.work.len0 = s.work.len0
  remain : t.work.remain = s.work.remain
  acked : t.work.acked = s.work.acked
  retry : t.work.retry.toNat = s.work.retry.toNat + r

section
variable {s t u : State} {n r r' : Nat} {rs : List ReadAnswer} {ws : List WriteAnswer}

theorem SilentRounds.patience (h : SilentRounds r s t) : t.patience = s.patience := by
  rw [State.patience, State.patience, h.conn]

theorem SilentRounds.burst (h : SilentRounds r s t) :
    burstCount t.cfg t.work.remain = burstCount s.cfg s.work.remain := by rw [h.cfg, h.remain]

theorem SilentRounds.trans (h : SilentRounds r s t) (h' : SilentRounds r' t u) : SilentRounds (r + r') s u where
  toTransacted := by
    have hall := h.toTransacted.trans h'.toTransacted
    rwa [h.patience, h.burst, ← Nat.add_mul, ← Nat.add_mul] at hall
  len0 := h'.len0.trans h.len0
  remain := h'.remain.trans h.remain
  acked := h'.acked.trans h.acked
  retry := by rw [h'.retry, h.retry, Nat.add_assoc]

theorem SilentRounds.goto (h : SilentRounds r s t) (p : Phase) : SilentRounds r s (t.goto p) :=
  ⟨⟨h.op, h.cfg, h.conn, h.readsLeft, h.writesLeft, h.readsMade, h.writesMade⟩, h.len0, h.remain, h.acked, h.retry⟩

/-- A burst of which nothing is acknowledged has a frame for every slot. -/
theorem length_unackedFrames (h : s.work.acked = 0) (lo n : Nat) : (s.unackedFrames lo n).length = n := by
  have hbit (j : Nat) : isAcked s.work.acked j = false := by rw [h]; exact BitVec.getLsbD_zero
  induction n generalizing lo with
  | zero => rfl
  | succ n ih => rw [unackedFrames_succ, unackedFrames_one_of_unacked (hbit lo), List.length_append, ih, Nat.add_comm]; rfl

/-- The frames of a burst were so many writes and no read. -/
theorem BurstWrote.transacted {fs : List (List Byte)} (h : BurstWrote fs s t) : Transacted 0 fs.length s t where
  op := h.op
  cfg := h.cfg
  conn := h.conn
  readsLeft := h.reads
  writesLeft := h.writes
  readsMade := by
    rw [State.readsMade, h.trace, List.countP_append, List.countP_reverse, List.countP_map]
    simp [State.readsMade, Function.comp_def, Transaction.isRead]
  writesMade := by
    rw [State.writesMade, h.trace, List.countP_append, List.countP_reverse, List.countP_map, Nat.add_comm]
    simp [State.writesMade, Function.comp_def, Transaction.isRead]

/-- With nothing acknowledged the advance moves nothing (R121). -/
theorem advance_of_unacked (h : s.work.acked = 0) : advance s = s := by
  have hnone : contiguous s.cfg.w s.work.acked = 0 := contiguous_of_not_acked _ (by rw [h]; exact BitVec.getLsbD_zero)
  simp [advance, hnone]

/-- The bits of a burst of which nothing is acknowledged are not all set (R116). -/
theorem burstAcked_of_unacked (h : s.work.acked = 0) {b : Nat} (hb : b ≤ 32) (hpos : 0 < b) :
    burstAcked s.work.acked b = false := by
  rw [← Bool.not_eq_true, burstAcked_iff _ hb, h]
  exact fun hall => Bool.eq_false_iff.mp BitVec.getLsbD_zero (hall 0 hpos)

/-- SEND at the first slot of the burst of a round begun at `s` (R113, R114). -/
def State.burstBegun (s : State) : State :=
  { s with phase := .sendBurst 0, work := { s.work with burstI := burstCount s.cfg s.work.remain } }

/-- The working registers in the wait of a round begun at `s` (R114, R116, R120). -/
def State.waitWork (s : State) : Work :=
  { s.work with burstI := burstCount s.cfg s.work.remain, retry := s.work.retry + 1, ticks := 0 }

/-- The burst of a round of which nothing is acknowledged is written whole. -/
theorem SendRoundAhead.run_burst (h : SendRoundAhead s)
    (hw : s.chan.writes = List.replicate (burstCount s.cfg s.work.remain) .ok ++ ws) :
    ∃ (k : Nat) (u : State), run k s = .next u ∧ u.phase = .sendWait ∧ u.work = s.waitWork ∧
      Transacted 0 (burstCount s.cfg s.work.remain) s u := by
  have hround : step s = .next s.burstBegun := by
    rw [step_sendRound h.op h.phase, stepSendRound_of_pos h.remain, State.burstBegun]
  have hcount : (s.burstBegun.unackedFrames 0 s.burstBegun.work.burstI).length = burstCount s.cfg s.work.remain :=
    length_unackedFrames (s := s.burstBegun) h.unacked 0 _
  obtain ⟨t, ht, hburst⟩ := Machine.run_burst (s := s.burstBegun) h.op rfl (by rw [hcount]; exact hw)
  obtain ⟨hop, hcfg, hconn, hreads, hwrites, hnread, hnwritten⟩ := hcount ▸ ht.transacted
  exact ⟨_, _, (run_of_step hround _).trans hburst, rfl, rfl, hop, hcfg, hconn, hreads, hwrites, hnread, hnwritten⟩

/-- One round on a silent channel, up to the retry check at its end. -/
theorem SendRoundAhead.run_round (h : SendRoundAhead s) (hretry : s.work.retry.toNat + 1 < 2 ^ 32)
    (hr : s.chan.reads = silent s.patience rs)
    (hw : s.chan.writes = List.replicate (burstCount s.cfg s.work.remain) .ok ++ ws) :
    ∃ (k : Nat) (t : State), run k s = .next (leaveSendWait t) ∧ SilentRounds 1 s t := by
  obtain ⟨k, u, hburst, hpu, hwork, hu⟩ := h.run_burst hw
  have hunacked : burstAcked u.work.acked u.work.burstI = false := by
    rw [hwork]
    exact burstAcked_of_unacked h.unacked (burstCount_le_32 h.legal _) (burstCount_pos h.legal h.remain)
  have hwaits : SendWaits u := ⟨hu.op.trans h.op, hpu, hunacked, by rw [hu.conn]; exact h.opened⟩
  have hpatience : u.patience = s.patience := by rw [State.patience, State.patience, hu.conn]
  have hwait := hwaits.run_of_silent (by rw [hwork, State.waitWork]) (by rw [hpatience, ← hr]; exact hu.readsLeft)
  rw [hpatience] at hwait
  have hall := hu.trans (transacted_emptyReads s.patience u)
  have hend := emptyReads_work s.patience u
  rw [hwork] at hend
  refine ⟨_, _, (run_add hburst).trans hwait, SilentRounds.goto ⟨?_, ?_, ?_, ?_, ?_⟩ _⟩
  · rw [Nat.one_mul, Nat.one_mul]
    rwa [Nat.zero_add, Nat.add_zero] at hall
  · rw [hend, State.waitWork]
  · rw [hend, State.waitWork]
  · rw [hend, State.waitWork]
  · rw [hend]
    exact BitVec.toNat_add_of_lt hretry

/-- A round that does not exhaust `MAX_RETRANS` is followed by another (R120, R121). -/
theorem SilentRounds.run_next (h : SilentRounds r s t) (hs : SendRoundAhead s)
    (hlt : t.work.retry < t.conn.maxRetrans) :
    run 1 (leaveSendWait t) = .next (t.goto .sendRound) ∧ SendRoundAhead (t.goto .sendRound) := by
  have hopen : t.conn.closed = false := by rw [h.conn]; exact hs.opened
  have hacked : t.work.acked = 0 := h.acked.trans hs.unacked
  have hadvance := step_sendAdvance (s := t.goto .sendAdvance) (h.op.trans hs.op) rfl
  rw [stepSendAdvance_eq, advance_of_unacked (s := t.goto .sendAdvance) hacked, State.goto_conn, hopen] at hadvance
  refine ⟨?_, h.op.trans hs.op, rfl, h.cfg ▸ hs.legal, h.remain ▸ hs.remain, hacked, hopen⟩
  rw [leaveSendWait_of_lt hlt, run_of_step hadvance]
  rfl

/-- The `n + 1` rounds left, by induction on their number: the last of them returns. -/
theorem SendRoundAhead.run_rounds (h : SendRoundAhead s)
    (hn : s.work.retry.toNat + (n + 1) = max 1 s.conn.maxRetrans.toNat)
    (hr : s.chan.reads = silent ((n + 1) * s.patience) rs)
    (hw : s.chan.writes = List.replicate ((n + 1) * burstCount s.cfg s.work.remain) .ok ++ ws) :
    ∃ (k : Nat) (t : State), run k s = .next (sendReturn t) ∧ SilentRounds (n + 1) s t := by
  have hmax := s.conn.maxRetrans.isLt
  induction n generalizing s with
  | zero =>
    rw [Nat.zero_add, Nat.one_mul] at hr hw
    obtain ⟨k, t, hrun, ht⟩ := h.run_round (by omega) hr hw
    have hspent : t.conn.maxRetrans ≤ t.work.retry := by
      rw [BitVec.le_def, ht.retry, ht.conn]
      omega
    exact ⟨k, t, by rw [hrun, leaveSendWait, if_pos hspent], ht⟩
  | succ n ih =>
    rw [Nat.succ_mul, Nat.add_comm _ s.patience, silent_add] at hr
    rw [Nat.succ_mul, Nat.add_comm _ (burstCount _ _), List.replicate_add, List.append_assoc] at hw
    obtain ⟨k, t, hrun, ht⟩ := h.run_round (by omega) hr hw
    have hlt : t.work.retry < t.conn.maxRetrans := by
      rw [BitVec.lt_def, ht.retry, ht.conn]
      omega
    obtain ⟨hnext, hround⟩ := ht.run_next h hlt
    have hg := ht.goto .sendRound
    obtain ⟨k', u, hrun', hu⟩ := ih hround (by rw [hg.retry, hg.conn]; omega)
      (by rw [hg.readsLeft, hr, Nat.one_mul, drop_silent, hg.patience])
      (by rw [hg.writesLeft, hw, Nat.one_mul, List.drop_left' List.length_replicate, hg.burst]) (by rw [hg.conn]; exact hmax)
    refine ⟨k + (1 + k'), u, (run_add hrun).trans ((run_add hnext).trans hrun'), ?_⟩
    rw [Nat.add_comm (n + 1) 1]
    exact hg.trans hu

end

/-- SEND issued on an open connection with data to send, at the head of its first round. -/
theorem sendRoundAhead_runSend {s : State} {n : Word} (hc : s.cfg.Legal) (hcl : s.conn.closed = false)
    (hpos : 0 < n.toNat) : SendRoundAhead (runSend (s.issueSend n)) := by
  rw [runSend_of_open (s := s.issueSend n) hcl]
  exact ⟨rfl, rfl, hc, hpos, rfl, hcl⟩

/-- Settles O32: max(1, `MAX_RETRANS`) rounds, and the last one's retry check returns with nothing advanced past. -/
theorem sendAgainstASilentChannel : Obligations.SendAgainstASilentChannel := by
  intro s s1 n rounds rs ws hc ho hi hcl hpos hn hrounds hr hw hs1
  cases (exec_send_of_idle ho hi hn).symm.trans hs1
  have hahead := sendRoundAhead_runSend hc hcl hpos
  rw [runSend_of_open (s := s.issueSend n) hcl] at hahead ⊢
  obtain ⟨m, hm⟩ : ∃ m, rounds = m + 1 := Nat.exists_eq_succ_of_ne_zero (by omega)
  rw [hm] at hr hw hrounds ⊢
  obtain ⟨k, t, hrun, ht⟩ := hahead.run_rounds ((Nat.zero_add _).trans hrounds) hr hw
  refine ⟨k, sendReturn t, hrun, rfl, ?_, ht.conn, ?_, ?_, ht.readsMade, ht.writesMade⟩
  · have hnone : t.work.len0 - t.work.remain = 0 := by rw [ht.len0, ht.remain]; exact Nat.sub_self _
    rw [sendReturn, hnone]
    rfl
  · exact ht.readsLeft.trans ((congrArg (List.drop _) hr).trans (drop_silent _ rs))
  · exact ht.writesLeft.trans ((congrArg (List.drop _) hw).trans (List.drop_left' List.length_replicate))

end Sys2Proof.Machine
end
